-- ==== Sys2Proof/Word.lean ====
section
/-! DEFINITION. The word types of the block: every host access, command, sample and coefficient is one 32-bit word
(20_memory.md R81, R85; 00_scope.md R9), and a host bus numbers it as four byte lanes (R85). -/

namespace Sys2Proof

/-- A 32-bit word, bit 0 the least significant (R10). -/
abbrev Word := BitVec 32

/-- One byte lane of a word on a host bus that numbers byte lanes (R85). -/
abbrev Byte := BitVec 8

end Sys2Proof
end

