-- ==== Sys2Proof/Syntax.lean ====
section
/-! DEFINITION. The five commands of the block, one constructor per row of spec/opcode_table.json (30_encoding.md R112). -/

namespace Sys2Proof

/-- A command. `PROD`'s sample count is the only operand of any command (R111). -/
inductive Instr where
  /-- `NOP` (40_sequencer.md R135). -/
  | nop
  /-- `INIT` (44_baseband_commands.md R240). -/
  | init
  /-- `PROD n` (44_baseband_commands.md R241). -/
  | prod (n : Nat)
  /-- `HALT` (40_sequencer.md R136). -/
  | halt
  /-- `TUNE` (41_pll_selector.md R151). -/
  | tune
deriving DecidableEq, Repr

end Sys2Proof
end

