-- ==== Sys2Proof/WellFormed.lean ====
section
/-! DEFINITION. Which command terms the encoding can hold (30_encoding.md R111). -/

namespace Sys2Proof

/-- `PROD`'s count is an unsigned 16-bit number, 0 to 65535 (R111); no other command has an operand. -/
def Instr.wellFormed : Instr → Bool
  | .nop => true
  | .init => true
  | .prod n => decide (n ≤ 65535)
  | .halt => true
  | .tune => true

end Sys2Proof
end

