-- ==== Sys2Proof/Decode.lean ====
section
/-! DEFINITION. The command decoder, total on all words and on any bytes (30_encoding.md R110 to R115), and the encoder. -/

namespace Sys2Proof

/-- Why a word is no command (R113). -/
inductive Reject where
  /-- `op` is `0x05` to `0xFF`. -/
  | unassignedOp
  /-- A reserved bit is set: one of bits 23:16 of any command, or of bits 15:0 of one without an operand. -/
  | reservedBits
  /-- Not the four bytes of one word (R110: "always the one word written"). -/
  | notOneWord
deriving DecidableEq, Repr

/-- What the decoder reads. -/
inductive Decoded where
  | command (i : Instr)
  | illegal (why : Reject)
deriving DecidableEq, Repr

/-- Field `op` of format C (R110). -/
def opField (v : Word) : BitVec 8 := v.extractLsb' 24 8
/-- Field `rsv` of format C (R110). -/
def rsvField (v : Word) : BitVec 8 := v.extractLsb' 16 8
/-- Field `n` of format C (R110). -/
def nField (v : Word) : BitVec 16 := v.extractLsb' 0 16

/-- A command without an operand: bits 23:0 must be 0 (R113). -/
def decodeBare (i : Instr) (v : Word) : Decoded :=
  if rsvField v = 0 ∧ nField v = 0 then .command i else .illegal .reservedBits

/-- `Decode(v)` of R114. -/
def decode (v : Word) : Decoded :=
  if opField v = 0x02 then
    if rsvField v = 0 then .command (.prod (nField v).toNat) else .illegal .reservedBits
  else if opField v = 0x00 then decodeBare .nop v
  else if opField v = 0x01 then decodeBare .init v
  else if opField v = 0x03 then decodeBare .halt v
  else if opField v = 0x04 then decodeBare .tune v
  else .illegal .unassignedOp

/-- The word whose bytes lie at rising addresses, bits 7:0 at the lowest (R85). -/
def wordOfBytes (b0 b1 b2 b3 : Byte) : Word := b3 ++ b2 ++ b1 ++ b0

/-- Byte lane `k` of a word (R85). -/
def byteOf (v : Word) (k : Nat) : Byte := v.extractLsb' (8 * k) 8

/-- The decoder on the bytes of a host bus that numbers byte lanes (R85): exactly four of them make a command word. -/
def decodeBytes : List Byte → Decoded
  | [b0, b1, b2, b3] => decode (wordOfBytes b0 b1 b2 b3)
  | _ => .illegal .notOneWord

/-- The opcode of each command (R112). -/
def Instr.op : Instr → BitVec 8
  | .nop => 0x00
  | .init => 0x01
  | .prod _ => 0x02
  | .halt => 0x03
  | .tune => 0x04

/-- `Encode` of R115. -/
def encode : Instr → Word
  | .nop => 0x00000000
  | .init => 0x01000000
  | .prod n => 0x02000000 ||| BitVec.ofNat 32 n
  | .halt => 0x03000000
  | .tune => 0x04000000

/-- The mask of a command's row in the opcode map (R112). -/
def Instr.mask : Instr → Word
  | .nop => 0xFFFFFFFF
  | .init => 0xFFFFFFFF
  | .prod _ => 0xFFFF0000
  | .halt => 0xFFFFFFFF
  | .tune => 0xFFFFFFFF

/-- The legal word of a command's row in the opcode map (R112). -/
def Instr.legalWord : Instr → Word
  | .nop => 0x00000000
  | .init => 0x01000000
  | .prod _ => 0x02000000
  | .halt => 0x03000000
  | .tune => 0x04000000

/-- The command word whose low `nbits` bits are those of `w`, every bit above them 0. -/
def tableWord (nbits w : Nat) : Word := BitVec.ofNat 32 (w % 2 ^ nbits)

/-- What the decoder reads from the opcode table's bits: the word laid out as bytes and decoded, `none` where it
refuses. -/
def decodeTableWord (nbits w : Nat) : Option Instr :=
  let v := tableWord nbits w
  match decodeBytes [byteOf v 0, byteOf v 1, byteOf v 2, byteOf v 3] with
  | .command i => some i
  | .illegal _ => none

end Sys2Proof
end

