-- ==== Sys2Proof/Machine/Float.lean ====
section
/-! DEFINITION. IEEE 754 binary32 addition and multiplication as 43_fir.md R211 to R214 give them: the exact result
rounded once, to nearest with ties to even; subnormals kept; every NaN result `0x7FC00000`. A finite number is an
integer count of units of 2^-149, the smallest subnormal. PRESUMED, unsafe: log 13. -/

namespace Sys2Proof.Machine

/-- The 8 exponent bits, 30:23 (R211). -/
def expField (w : Word) : Nat := (w.extractLsb' 23 8).toNat
/-- The 23 fraction bits, 22:0 (R211). -/
def fracField (w : Word) : Nat := (w.extractLsb' 0 23).toNat
/-- The sign bit, 31 (R211). -/
def signBit (w : Word) : Bool := w.getLsbD 31

def isNaN (w : Word) : Bool := expField w == 255 && fracField w != 0
def isInf (w : Word) : Bool := expField w == 255 && fracField w == 0
/-- Neither a NaN nor an infinity. -/
def isFinite (w : Word) : Bool := expField w != 255

/-- The magnitude of a finite word in units of 2^-149: a subnormal counts its fraction; a normal number with exponent
field `e` counts `(2^23 + fraction) * 2^(e - 1)` (bias 127, R211). -/
def magnitude (w : Word) : Nat :=
  if expField w = 0 then fracField w else (2 ^ 23 + fracField w) * 2 ^ (expField w - 1)

/-- The value of a finite word in units of 2^-149. -/
def value (w : Word) : Int := if signBit w then -(magnitude w : Int) else (magnitude w : Int)

/-- `n / 2^k` rounded to the nearest integer, a tie to the even one (R212). -/
def roundShift (n k : Nat) : Nat :=
  let q := n / 2 ^ k
  let r := n % 2 ^ k
  if 2 * r < 2 ^ k then q else if 2 ^ k < 2 * r then q + 1 else q + q % 2

/-- Bits 30:0 of infinity. -/
def infinityBits : Nat := 0x7F800000

/-- Bits 30:0 of the binary32 number nearest to `n` units of 2^-(149 + g): 24 significant bits are kept, or those
down to 2^-149 where that is fewer; a carry out of the significand moves into the exponent field, and a result too
large becomes infinity (R212). -/
def roundMagnitude (n g : Nat) : Nat :=
  let drop := max g (Nat.log2 n - 23)
  min ((drop - g) * 2 ^ 23 + roundShift n drop) infinityBits

/-- The word with the given sign and bits 30:0. -/
def withSign (negative : Bool) (bits : Nat) : Word :=
  BitVec.ofNat 32 (if negative then 2 ^ 31 + bits else bits)

/-- The canonical NaN (R13, R212). -/
def canonicalNaN : Word := 0x7FC00000
/-- `+0.0` (R13). -/
def plusZero : Word := 0x00000000
/-- `0.5` (R13). -/
def oneHalf : Word := 0x3F000000

/-- `fadd32` of R213. -/
def fadd32 (a b : Word) : Word :=
  if isNaN a || isNaN b then canonicalNaN
  else if isInf a then
    if isInf b && signBit a != signBit b then canonicalNaN else a
  else if isInf b then b
  else
    let sum := value a + value b
    if sum = 0 then withSign (signBit a && signBit b) 0
    else withSign (decide (sum < 0)) (roundMagnitude sum.natAbs 0)

/-- `fmul32` of R214. -/
def fmul32 (a b : Word) : Word :=
  let negative := signBit a != signBit b
  if isNaN a || isNaN b then canonicalNaN
  else if isInf a || isInf b then
    if magnitude a = 0 ∨ magnitude b = 0 then canonicalNaN else withSign negative infinityBits
  else withSign negative (roundMagnitude (magnitude a * magnitude b) 149)

end Sys2Proof.Machine
end

