-- ==== Sys2Proof/Config.lean ====
section
/-! DEFINITION. What an implementation fixes (00_scope.md R7, R8), the shapes of the audio source's answers
(42_upsampler.md R184, R190), and the values the spec leaves to the environment, which are constants without a body. -/

namespace Sys2Proof

/-- One frame as the source delivers it (R190): with `CTRL.STEREO = 1` the left word and then the right; with
`CTRL.STEREO = 0` a frame is ONE word, held in `left`, and nothing ever reads `right` (DESIGN CHOICE, safe: log 18). -/
structure Frame where
  left : Word
  right : Word
deriving DecidableEq, Repr, Inhabited

/-- The answers to `SrcRead(n)` (R184): the frames delivered (none of them: end of stream), or `ERROR`. -/
inductive ReadAnswer where
  | frames (fs : List Frame)
  | error
deriving DecidableEq, Repr, Inhabited

/-- The answers to `SrcRewind()` (R184). -/
inductive RewindAnswer where
  | ok
  | error
deriving DecidableEq, Repr, Inhabited

/-- The two open parameters of the block (R8): frames asked per source read, and the depth of the output FIFO. -/
structure Params where
  chunkFrames : Nat
  outDepth : Nat
deriving DecidableEq, Repr

/-- The legal ranges of the two parameters (R8). -/
abbrev Params.Legal (p : Params) : Prop :=
  1 ≤ p.chunkFrames ∧ p.chunkFrames ≤ 65535 ∧ 1 ≤ p.outDepth ∧ p.outDepth ≤ 65535

/-- The defaults of R8, so that `PARAM` reads `0x04000100` (R35). -/
def Params.default : Params := { chunkFrames := 1024, outDepth := 256 }

namespace Config

/-- `OUT_RATE` of R7: output samples per second, the phase numerator. -/
abbrev outRate : Nat := 192000
/-- `K_MIN` of R7. -/
abbrev kMin : Nat := 2
/-- `K_END` of R7: the divider range is `[2, 50)`. -/
abbrev kEnd : Nat := 50
/-- `VCO_MAX` of R7, a strict bound on `k · f_c` (R155). -/
abbrev vcoMax : Nat := 1400000000
/-- `GUARD` of R7, added to the deviation in the swing test (R157). -/
abbrev guardHz : Nat := 10
/-- The inner band of R7, an open interval by R156. -/
abbrev innerLow : Nat := 900000000
abbrev innerHigh : Nat := 1100000000
/-- The outer band of R7, an open interval by R156. -/
abbrev outerLow : Nat := 800000000
abbrev outerHigh : Nat := 1200000000
/-- The constant of the `ID` register (R2, R34). -/
abbrev idWord : Word := 0x55465031

/-- FREE: the answer of the audio source to its request number `r`, where no script or file of the state gives it
(R184: "any value the row allows"; U7; DESIGN CHOICE, safe: log 3). -/
opaque oracleRead : Nat → ReadAnswer
/-- FREE: as `oracleRead`, for a rewind request (log 3). -/
opaque oracleRewind : Nat → RewindAnswer
/-- FREE: what frame `j` of the answer to request `r` holds where a file of the other shape than `CTRL.STEREO` is
attached: R184 makes the match the host's duty and gives no frame for the mismatch (DESIGN CHOICE, unsafe for
their number: log 9). -/
opaque unmatchedFrame : Nat → Nat → Frame
/-- FREE: chunk buffer entry `j`, after `r` source requests, where no refill has written it (R60, R65, U9;
DESIGN CHOICE, safe: log 7). -/
opaque unspecifiedFrame : Nat → Nat → Frame

end Config

end Sys2Proof
end

