-- ==== Sys2Proof/Machine/State.lean ====
section
/-! DEFINITION. The state of the UFP block (10_state.md R30) with the agents that act on it (00_scope.md R15), the
stops, and the state after reset (R65). -/

namespace Sys2Proof.Machine

/-- `MODE` (10_state.md R62). Its fourth encoding is never produced (U14) and has no constructor. -/
inductive Mode where
  | idle
  | running
  | fault
deriving DecidableEq, Repr

/-- The nine errors of the block (60_exceptions.md R261). -/
inductive Cause where
  | illegal
  | busyWr
  | badState
  | locked
  | cfg
  | noDiv
  | audioIo
  | emptySrc
  | underflow
deriving DecidableEq, Repr

/-- The audio source `SRC` as far as it can be seen at its port (42_upsampler.md R184). It is outside the block: a
reset does not reach it (70_reset_and_hazards.md R304). DESIGN CHOICE, safe: log 3. -/
inductive Source where
  /-- Answers listed in advance, in order; when a list is used up, every further answer is free. -/
  | script (reads : List ReadAnswer) (rewinds : List RewindAnswer)
  /-- The reference file source of R197: its shape, its stream, and its position. -/
  | file (stereo : Bool) (stream : List Frame) (pos : Nat)
  /-- `SRC error` of R197: `ERROR` to every request. -/
  | error
  /-- A source that never answers (70_reset_and_hazards.md R314, U5). -/
  | silent
deriving DecidableEq, Repr

/-- One turn of the interleaving of the agents (20_memory.md R92, 40_sequencer.md R134). The turns still to come are
the input of the machine (DESIGN CHOICE, safe but for claims of fairness: log 5). -/
inductive Turn where
  /-- `HOST`: `MemWrite(off, width, v)` (20_memory.md R87). -/
  | write (off width : Nat) (v : Word)
  /-- `HOST`: `MemRead(off, width)` (20_memory.md R88). -/
  | read (off width : Nat)
  /-- `HOST`: the pseudo-instruction `WAIT` (30_encoding.md R118). -/
  | wait
  /-- `HOST` attaches or reopens the audio source (R184: `open` is the host's business; R268, R304;
  DESIGN CHOICE, safe: log 20). -/
  | attach (src : Source)
  /-- `SEQ` takes its step, if it has one (40_sequencer.md R133). -/
  | seq
  /-- Power-on reset, the input `rst_n` (70_reset_and_hazards.md R300). -/
  | powerOn
deriving DecidableEq, Repr

/-- The block (R30), its parameters (R8), and the agents' part of a run. Field order is that of R30's table. -/
structure State where
  /-- The parameters `CHUNK_FRAMES` and `OUT_DEPTH` (R8); no step changes them (DESIGN CHOICE: log 2). -/
  par : Params
  /-- `STATUS.BUSY` (R37). -/
  busy : Bool
  /-- `STATUS.CUR_OP` (R37). -/
  curOp : BitVec 8
  /-- `STATUS.PROD_REM` (R37). -/
  prodRem : BitVec 16
  /-- `STATUS.MODE` (R37, R62). -/
  mode : Mode
  /-- `ERR[8:0]` (R38). -/
  err : BitVec 9
  /-- `CTRL.STEREO` (R36). -/
  stereo : Bool
  /-- `RATE[23:0]` (R40). -/
  rate : BitVec 24
  /-- `PHASE` (R43). -/
  phase : Word
  /-- `CHUNK_IDX` (R45). -/
  chunkIdx : BitVec 16
  /-- `CHUNK_LEN` (R45). -/
  chunkLen : BitVec 16
  /-- The chunk buffer (R60): its entries `0, 1, ...` as far as a refill has written them since reset
  (DESIGN CHOICE, safe: log 7). -/
  chunk : List Frame
  /-- `COEF[0..63]` (R58). -/
  coef : Vector Word 64
  /-- `DL[0..126]` (R59). -/
  dl : Vector Word 127
  /-- `WIDX[6:0]` (R44). -/
  widx : BitVec 7
  /-- The output FIFO (R61), oldest word first. -/
  fifo : List Word
  /-- `ADVCNT` (R46). -/
  advcnt : Word
  /-- `RWCNT` (R47). -/
  rwcnt : Word
  /-- `SMPCNT` (R48). -/
  smpcnt : Word
  /-- `FC` (R49). -/
  fc : Word
  /-- `DEV` (R50). -/
  dev : Word
  /-- `FREF` (R51). -/
  fref : Word
  /-- `KOVR[7:0]` (R52). -/
  kovr : BitVec 8
  /-- `K[7:0]` (R53). -/
  k : BitVec 8
  /-- `FOM[1:0]` (R54). -/
  fom : BitVec 2
  /-- `MINT` (R55). -/
  mint : Word
  /-- `MFRAC[19:0]` (R56). -/
  mfrac : BitVec 20
  /-- `TSTAT[2:0]`, that is `{OVR, FAIL, DONE}` (R57). -/
  tstat : BitVec 3
  /-- The turns still to come (the model's own field; see `Turn`; DESIGN CHOICE: log 1 and log 5). -/
  agenda : List Turn
  /-- The audio source (outside the block, R63, R304; DESIGN CHOICE: log 3). -/
  src : Source
  /-- How many requests the block has made of its source (the model's own field: it numbers the free answers;
  DESIGN CHOICE: log 1). -/
  srcReqs : Nat
  /-- What the host's last read returned (`h_rdata` of R198; the model's own field; DESIGN CHOICE: log 1). -/
  rdata : Word
deriving DecidableEq, Repr

/-- Why the machine would stop. Raised by the sequencer's turn only. -/
inductive Fault where
  /-- `BUSY = 1` with a `CUR_OP` no command has: 40_sequencer.md R137 says it cannot occur and gives no step for it
  (DEDUCED: log 15). No state that a run reaches raises it. Safe. -/
  | noSuchOp
deriving DecidableEq, Repr

/-- Why there is no transition: what the spec says its model refuses. -/
inductive Refusal where
  /-- An instruction without a meaning yet. None is left. Safe. -/
  | notModelled (mnemonic : String)
  /-- A host access that is narrower, wider or misaligned: "the model refuses it" (20_memory.md R81, U11).
  Safe (log 16). -/
  | notOneAlignedWord
  /-- A host access at or above `0x400`: "the model refuses it" (20_memory.md R82, U11). Safe (log 16). -/
  | outsideWindow
  /-- A source answer with more frames than asked for: "outside the model; the source must not" (R185, U8).
  Safe (log 11). -/
  | sourceOverrun
deriving DecidableEq, Repr

/-- The outcome of one step of this machine. -/
abbrev Out := Host.Outcome State Fault Refusal

/-- The machine after power-on reset (R65, R301), with the default parameters (R8), no turn to come, and a source
whose every answer is free. DESIGN CHOICE, unsafe, for the four fields of the model (log 1), the parameters (log 2) and
the source (log 3). -/
def State.reset : State where
  par := Params.default
  busy := false
  curOp := 0
  prodRem := 0
  mode := .idle
  err := 0
  stereo := false
  rate := 0
  phase := 0
  chunkIdx := 0
  chunkLen := 0
  chunk := []
  coef := Vector.replicate 64 0
  dl := Vector.replicate 127 0
  widx := 0
  fifo := []
  advcnt := 0
  rwcnt := 0
  smpcnt := 0
  fc := 0
  dev := 0
  fref := 0
  kovr := 0
  k := 0
  fom := 0
  mint := 0
  mfrac := 0
  tstat := 0
  agenda := []
  src := .script [] []
  srcReqs := 0
  rdata := 0

end Sys2Proof.Machine
end

