-- ==== Sys2Proof/Machine/Flags.lean ====
section
/-! DEFINITION. The status bits: what is derived from state (10_state.md R66), the words `STATUS` and `TSTAT` are
made of (R37, R57), and the bit of each error in `ERR` (60_exceptions.md R261). -/

namespace Sys2Proof.Machine

/-- The encoding of `MODE` (R37). -/
def Mode.code : Mode → BitVec 2
  | .idle => 0
  | .running => 1
  | .fault => 2

/-- The cause code of an error, its bit index in `ERR` (R261). -/
def Cause.code : Cause → Nat
  | .illegal => 0
  | .busyWr => 1
  | .badState => 2
  | .locked => 3
  | .cfg => 4
  | .noDiv => 5
  | .audioIo => 6
  | .emptySrc => 7
  | .underflow => 8

/-- The error's bit in `ERR` (R38). -/
def Cause.bit (e : Cause) : BitVec 9 := 1 <<< e.code

/-- `OUT_EMPTY` (R66). -/
def State.outEmpty (s : State) : Bool := s.fifo.length == 0

/-- `OUT_FULL` (R66). -/
def State.outFull (s : State) : Bool := s.fifo.length == s.par.outDepth

/-- `STALL` (R66): a `PROD` is held for FIFO space. -/
def State.stall (s : State) : Bool := s.busy && s.curOp == 0x02 && s.prodRem != 0 && s.outFull

/-- `{OVR, FAIL, DONE}` (R57). -/
def tstatBits (done fail ovr : Bool) : BitVec 3 :=
  BitVec.ofBool ovr ++ BitVec.ofBool fail ++ BitVec.ofBool done

/-- The word `STATUS` reads as (R37, 20_memory.md R88). -/
def State.statusWord (s : State) : Word :=
  s.prodRem ++ s.curOp ++ (0 : BitVec 2) ++ BitVec.ofBool s.stall ++ BitVec.ofBool s.outFull
    ++ BitVec.ofBool s.outEmpty ++ s.mode.code ++ BitVec.ofBool s.busy

end Sys2Proof.Machine
end

