-- ==== Sys2Proof/Machine/Ops.lean ====
section
/-! DEFINITION. The named operations over the block's registers and memories, and raising an error, the block's one
form of taking an exception (60_exceptions.md R260: there is no vector, no saved state and no return). -/

namespace Sys2Proof.Machine

/-- `floor(a / b)` for `b > 0`, toward minus infinity (00_scope.md R11). -/
def floorDiv (a : Int) (b : Nat) : Int := Int.fdiv a b

/-! ## Errors -/

/-- `raise E_<NAME>`: the error's sticky bit is set (60_exceptions.md R260, R271). -/
def State.raise (e : Cause) (s : State) : State := { s with err := s.err ||| e.bit }

/-- The `ERR` bit-clear: every bit written 1 is cleared (20_memory.md R87). -/
def State.clearErr (mask : BitVec 9) (s : State) : State := { s with err := s.err &&& ~~~mask }

/-! ## The sequencer triple -/

/-- An accepted command (40_sequencer.md R131). -/
def State.accept (op : BitVec 8) (n : BitVec 16) (s : State) : State :=
  { s with busy := true, curOp := op, prodRem := n }

/-- `complete` (40_sequencer.md R130, R137). -/
def State.complete (s : State) : State := { s with busy := false, curOp := 0, prodRem := 0 }

/-- `x[MODE] <- m` (10_state.md R62). -/
def State.setMode (m : Mode) (s : State) : State := { s with mode := m }

/-! ## Memories -/

/-- The delay-line entry of an index that may lie outside `[0, 127)`: taken modulo 127 (43_fir.md R216). -/
def dlIndex (j : Int) : Fin 127 := ⟨(j % 127).toNat, by omega⟩

/-- `DL[j mod 127]` (10_state.md R59). -/
def State.dlAt (s : State) (j : Int) : Word := s.dl[dlIndex j]

/-- `COEF[i]` (10_state.md R58). -/
def State.coefAt (s : State) (i : Fin 64) : Word := s.coef[i]

/-- `COEF[i] <- v` (20_memory.md R87). -/
def State.setCoef (i : Fin 64) (v : Word) (s : State) : State := { s with coef := s.coef.set i v }

/-- `CHUNK[j]` (10_state.md R60); an entry that no refill has written since reset is a free value (U9; DESIGN CHOICE,
safe: log 7). -/
def State.chunkAt (s : State) (j : Nat) : Frame := s.chunk.getD j (Config.unspecifiedFrame s.srcReqs j)

/-- The writes of a refill that brought the frames `fs` (42_upsampler.md R187): entries `0..m-1`, the others kept. -/
def State.storeChunk (fs : List Frame) (s : State) : State :=
  { s with
    chunk := fs ++ s.chunk.drop fs.length
    chunkLen := BitVec.ofNat 16 fs.length
    chunkIdx := 0 }

/-- `FifoPush(w)` (10_state.md R61). -/
def State.push (w : Word) (s : State) : State := { s with fifo := s.fifo ++ [w] }

/-- A host read of `OUT_DATA` (10_state.md R41, 60_exceptions.md R270): the oldest word, which is removed; from an
empty FIFO 0, with `E_UNDERFLOW`. -/
def State.pop (s : State) : Word × State :=
  match s.fifo with
  | [] => (0, s.raise .underflow)
  | w :: rest => (w, { s with fifo := rest })

/-- What the block's memories satisfy between any two steps (10_state.md R64): the lengths stay within the buffers,
and the entries below `CHUNK_LEN` have been written. The block has no byte memory (DESIGN CHOICE, safe: log 12). -/
abbrev Memory.wf (s : State) : Prop :=
  s.fifo.length ≤ s.par.outDepth ∧ s.chunk.length ≤ s.par.chunkFrames ∧ s.chunkLen.toNat ≤ s.chunk.length

/-! ## Reset -/

/-- `Reset()` (70_reset_and_hazards.md R301): every element of the block at its reset value (10_state.md R65). What is
outside the block stays (R304): the parameters, the turns to come, the source, and what the host has read (log 1, log 2). -/
def State.resetBlock (s : State) : State :=
  { State.reset with par := s.par, agenda := s.agenda, src := s.src, srcReqs := s.srcReqs, rdata := s.rdata }

end Sys2Proof.Machine
end

