-- ==== Sys2Proof/Machine/Fir.lean ====
section
/-! DEFINITION. The FIR low-pass filter: insert, newest and oldest, evaluation, and the full kernel the 64
coefficients stand for (43_fir.md R210 to R220). -/

namespace Sys2Proof.Machine

/-- `Insert(s)` (R215). -/
def State.insert (w : Word) (s : State) : State :=
  { s with
    dl := s.dl.set (dlIndex s.widx.toNat) w
    widx := BitVec.ofNat 7 ((s.widx.toNat + 1) % 127) }

/-- The entry that holds the i-th newest sample when the write index is `w` (R216). -/
def newest (w i : Nat) : Int := (w : Int) - 1 - i

/-- The entry that holds the i-th oldest sample when the write index is `w` (R216). -/
def oldest (w i : Nat) : Int := (w : Int) + i

/-- The term of coefficient `i` in R217: the pair is summed before the product. -/
def State.firTerm (s : State) (i : Fin 64) : Word :=
  fmul32 (s.coefAt i) (fadd32 (s.dlAt (newest s.widx.toNat i)) (s.dlAt (oldest s.widx.toNat i)))

/-- `Evaluate()` (R217), after the insert: the terms accumulated from `i = 0` upward, starting from `+0.0`. -/
def State.evaluate (s : State) : Word :=
  (List.finRange 64).foldl (fun acc i => fadd32 acc (s.firTerm i)) plusZero

/-- The full expanded kernel of R219 as a function of the 64 coefficients, in exact arithmetic. -/
def fullKernel (c : Nat → Int) (a : Nat) : Int :=
  if a < 63 then c a else if a = 63 then 2 * c 63 else c (126 - a)

/-- What R217 computes in exact arithmetic, before any rounding, from a delay line `x` indexed modulo 127. -/
def exactEvaluate (c : Nat → Int) (x : Fin 127 → Int) (w : Nat) : Int :=
  ((List.range 64).map fun i => c i * (x (dlIndex (newest w i)) + x (dlIndex (oldest w i)))).sum

end Sys2Proof.Machine
end

