-- ==== Sys2Proof/Machine/Source.lean ====
section
/-! DEFINITION. The audio source port: the two requests and their answers (42_upsampler.md R184, R185, R197). -/

namespace Sys2Proof

/-- The answer cut to the `n` frames asked for: over all free answers, exactly the answers R184 allows (log 3). -/
def ReadAnswer.upTo (n : Nat) : ReadAnswer → ReadAnswer
  | .frames fs => .frames (fs.take n)
  | .error => .error

end Sys2Proof

namespace Sys2Proof.Machine

/-- What a request comes to. -/
inductive Reply (α : Type) where
  /-- The answer, and the state in which the source has moved on. -/
  | answered (a : α) (s : State)
  /-- No answer ever comes (70_reset_and_hazards.md R314). -/
  | unanswered
  /-- More frames than asked for (R185; DESIGN CHOICE, safe: log 11). -/
  | overrun
deriving Repr

/-- One more request made. -/
def State.countReq (s : State) : State := { s with srcReqs := s.srcReqs + 1 }

/-- The source has moved on to `src`. -/
def State.setSrc (src : Source) (s : State) : State := { s with src := src }

/-- The next `n` frames of a file at position `pos`, as the block takes them (R190, R197). Where the file's shape is
not the one `CTRL.STEREO` declares, which R184 makes the host's duty, each frame is a free value (DESIGN CHOICE: log 9). -/
def State.fileFrames (s : State) (n : Nat) (stereo : Bool) (stream : List Frame) (pos : Nat) : List Frame :=
  let fs := (stream.drop pos).take n
  if stereo = s.stereo then fs else (List.range fs.length).map (Config.unmatchedFrame s.srcReqs)

/-- `SrcRead(CHUNK_FRAMES)` (R184; DESIGN CHOICE, safe: log 3, and log 11 for a listed answer that is too long). -/
def State.srcRead (s : State) : Reply ReadAnswer :=
  match s.src with
  | .script (.frames fs :: reads) rewinds =>
    if fs.length ≤ s.par.chunkFrames then .answered (.frames fs) (s.countReq.setSrc (.script reads rewinds))
    else .overrun
  | .script (.error :: reads) rewinds => .answered .error (s.countReq.setSrc (.script reads rewinds))
  | .script [] _ => .answered ((Config.oracleRead s.srcReqs).upTo s.par.chunkFrames) s.countReq
  | .file stereo stream pos =>
    let fs := s.fileFrames s.par.chunkFrames stereo stream pos
    .answered (.frames fs) (s.countReq.setSrc (.file stereo stream (pos + fs.length)))
  | .error => .answered .error s.countReq
  | .silent => .unanswered

/-- `SrcRewind()` (R184). -/
def State.srcRewind (s : State) : Reply RewindAnswer :=
  match s.src with
  | .script reads (r :: rewinds) => .answered r (s.countReq.setSrc (.script reads rewinds))
  | .script _ [] => .answered (Config.oracleRewind s.srcReqs) s.countReq
  | .file stereo stream _ => .answered .ok (s.countReq.setSrc (.file stereo stream 0))
  | .error => .answered .error s.countReq
  | .silent => .unanswered

end Sys2Proof.Machine
end

