-- ==== Sys2Proof/Machine/Upsampler.lean ====
section
/-! DEFINITION. The incremental upsampler: refill, frame advance, phase step, and the current sample
(42_upsampler.md R180 to R191). -/

namespace Sys2Proof.Machine

/-- What a refill or an advance comes to. -/
inductive Advanced where
  | ok (s : State)
  /-- `FAIL(e)`, with the state the requests made so far leave (R187). -/
  | fail (e : Cause) (s : State)
  | unanswered
  | overrun
deriving Repr

/-- What a phase step comes to (R183): on failure also the partial phase `P`. -/
inductive Phased where
  | ok (s : State)
  | fail (e : Cause) (p : Nat) (s : State)
  | unanswered
  | overrun
deriving Repr

/-- `RWCNT` counts a successful rewind (R187). -/
def State.countRewind (s : State) : State := { s with rwcnt := s.rwcnt + 1 }

/-- `ADVCNT` counts a completed advance (R186). -/
def State.countAdvance (s : State) : State := { s with advcnt := s.advcnt + 1 }

/-- The next frame of the current chunk (R186). -/
def State.nextFrame (s : State) : State := { s with chunkIdx := s.chunkIdx + 1 }

/-- `x[PHASE] <- P` (R183). -/
def State.setPhase (p : Nat) (s : State) : State := { s with phase := BitVec.ofNat 32 p }

/-- The second read of a refill, after a successful rewind (R187): end of stream now means an empty source (R188). -/
def State.refillRewound (s : State) : Advanced :=
  match s.srcRead with
  | .answered .error s1 => .fail .audioIo s1
  | .answered (.frames []) s1 => .fail .emptySrc s1
  | .answered (.frames (f :: fs)) s1 => .ok (s1.storeChunk (f :: fs))
  | .unanswered => .unanswered
  | .overrun => .overrun

/-- `Refill()` (R187). -/
def State.refill (s : State) : Advanced :=
  match s.srcRead with
  | .answered .error s1 => .fail .audioIo s1
  | .answered (.frames []) s1 =>
    match s1.srcRewind with
    | .answered .error s2 => .fail .audioIo s2
    | .answered .ok s2 => s2.countRewind.refillRewound
    | .unanswered => .unanswered
    | .overrun => .overrun
  | .answered (.frames (f :: fs)) s1 => .ok (s1.storeChunk (f :: fs))
  | .unanswered => .unanswered
  | .overrun => .overrun

/-- `Advance()` (R186). -/
def State.advance (s : State) : Advanced :=
  if s.chunkIdx.toNat + 1 < s.chunkLen.toNat then .ok s.nextFrame.countAdvance
  else
    match s.refill with
    | .ok s1 => .ok s1.countAdvance
    | other => other

/-- The loop of `PhaseStep()` (R183) over `a` advances. -/
def State.phaseLoop : Nat → Nat → State → Phased
  | 0, p, s => .ok (s.setPhase p)
  | a + 1, p, s =>
    match s.advance with
    | .ok s1 => s1.phaseLoop a (p - Config.outRate)
    | .fail e s1 => .fail e (p - Config.outRate) s1
    | .unanswered => .unanswered
    | .overrun => .overrun

/-- `PhaseStep()` (R183; DEDUCED, unsafe: log 8): `while P >= 192000` runs `floor(P / 192000)` times. -/
def State.phaseStep (s : State) : Phased :=
  let p := s.phase.toNat + s.rate.toNat
  s.phaseLoop (p / Config.outRate) p

/-- `CurrentSample()` (R191). -/
def State.currentSample (s : State) : Word :=
  let f := s.chunkAt s.chunkIdx.toNat
  if s.stereo then fmul32 (fadd32 f.left f.right) oneHalf else f.left

end Sys2Proof.Machine
end

