-- ==== Sys2Proof/Machine/Baseband.lean ====
section
/-! DEFINITION. The meanings of `INIT` and `PROD` (44_baseband_commands.md R240 to R246). -/

namespace Sys2Proof.Machine

/-- `P0` of a rate (42_upsampler.md R182): `max(0, 192000 - RATE)`. -/
def initialPhase (rate : Nat) : Nat := Config.outRate - rate

/-- What a successful `INIT` writes (R240), but for the sequencer triple. -/
def State.startRun (s : State) : State :=
  { s with
    phase := BitVec.ofNat 32 (initialPhase s.rate.toNat)
    dl := Vector.replicate 127 plusZero
    widx := 0
    chunkIdx := 0
    chunkLen := 0
    fifo := []
    advcnt := 0
    rwcnt := 0
    smpcnt := 0
    mode := .running }

/-- `INIT` (R240). -/
def execInit (s : State) : Out :=
  if s.busy then
    if s.rate = 0 then .next (s.raise .cfg).complete else .next s.startRun.complete
  else .next (s.accept Instr.init.op 0)

/-- `Fail(e, P)` (R244). DEDUCED, unsafe: log 8. -/
def State.failSample (e : Cause) (p : Nat) (s : State) : State :=
  (((s.setPhase p).setMode .fault).raise e).complete

/-- One sample more: counted, and one fewer owed (R242). -/
def State.countSample (s : State) : State :=
  { s with smpcnt := s.smpcnt + 1, prodRem := s.prodRem - 1 }

/-- Steps 2 to 5 of a sample step, after a successful phase step (R242). -/
def State.finishSample (s : State) : State :=
  let s1 := s.insert s.currentSample
  let s2 := (s1.push s1.evaluate).countSample
  if s2.prodRem = 0 then s2.complete else s2

/-- `ProdStep()` (R242), with the empty step of R245. While the FIFO has no room the step is not enabled and nothing
happens (R243); nor does it happen where the source never answers (70_reset_and_hazards.md R314).
DEDUCED: the step that is not enabled is log 10 (safe), the `PROD 0` of a full FIFO is log 17 (unsafe). -/
def State.prodStep (s : State) : Out :=
  if s.prodRem = 0 then .next s.complete
  else if s.fifo.length < s.par.outDepth then
    match s.phaseStep with
    | .ok s1 => .next s1.finishSample
    | .fail e p s1 => .next (s1.failSample e p)
    | .unanswered => .next s
    | .overrun => .refused .sourceOverrun
  else .next s

/-- `PROD n` (R241): accepted in `RUNNING` only (40_sequencer.md R131), then one step for each sample still owed. -/
def execProd (n : Nat) (s : State) : Out :=
  if s.busy then s.prodStep
  else if s.mode = .running then .next (s.accept (Instr.prod n).op (BitVec.ofNat 16 n))
  else .next (s.raise .badState)

end Sys2Proof.Machine
end

