-- ==== Sys2Proof/Machine/Control.lean ====
section
/-! DEFINITION. The meanings of `NOP` and `HALT` (40_sequencer.md R135, R136). A command's meaning has the two phases
of R130: in a state with `BUSY = 0` the host's write of its word is being issued (R131); in a state with `BUSY = 1`
the sequencer takes the command's step (R137). DEDUCED, safe: log 6. -/

namespace Sys2Proof.Machine

/-- `NOP` (R135). -/
def execNop (s : State) : Out :=
  if s.busy then .next s.complete else .next (s.accept Instr.nop.op 0)

/-- `HALT` (R136). -/
def execHalt (s : State) : Out :=
  if s.busy then .next (s.setMode .idle).complete else .next (s.accept Instr.halt.op 0)

end Sys2Proof.Machine
end

