-- ==== Sys2Proof/Machine/Pll.lean ====
section
/-! DEFINITION. The PLL divider selector and the meaning of `TUNE` (41_pll_selector.md R150 to R163). -/

namespace Sys2Proof.Machine

/-- The inputs of the search, as unbounded integers (R151). -/
structure TuneIn where
  fc : Nat
  dev : Nat
  fref : Nat
deriving DecidableEq, Repr

/-- The VCO limit (R155). -/
def TuneIn.underVco (t : TuneIn) (k : Nat) : Bool := decide (k * t.fc < Config.vcoMax)

/-- The integer multiplier at `f` hertz: `floor(f · k / f_ref)`, where `f` may be negative (R157). -/
def TuneIn.multAt (t : TuneIn) (f : Int) (k : Nat) : Int := floorDiv (f * k) t.fref

/-- The swing test (R157). -/
def TuneIn.swingOk (t : TuneIn) (k : Nat) : Bool :=
  t.multAt ((t.fc : Int) - Config.guardHz - t.dev) k == t.multAt ((t.fc : Int) + Config.guardHz + t.dev) k

/-- `Valid(k)` (R157). -/
def TuneIn.valid (t : TuneIn) (k : Nat) : Bool := t.underVco k && t.swingOk k

/-- The band points of a VCO frequency (R156): both intervals are open. -/
def bandPoints (v : Nat) : Nat :=
  (if Config.innerLow < v ∧ v < Config.innerHigh then 1 else 0)
    + (if Config.outerLow < v ∧ v < Config.outerHigh then 1 else 0)

/-- The fraction point (R158). -/
def TuneIn.fractionPoint (t : TuneIn) (k : Nat) : Nat :=
  let r := (k * t.fc) % t.fref
  if t.fref ≤ 5 * r ∧ 5 * r ≤ 4 * t.fref then 1 else 0

/-- `Fom(k)` (R159). -/
def TuneIn.figure (t : TuneIn) (k : Nat) : Nat := bandPoints (k * t.fc) + t.fractionPoint k

/-- The candidates, ascending (R154). -/
def candidates : List Nat := List.range' Config.kMin (Config.kEnd - Config.kMin)

/-- One round of the search (R151, R160): the running best is a divider and its figure, at first 0 and -1. -/
def TuneIn.consider (t : TuneIn) (best : Nat × Int) (k : Nat) : Nat × Int :=
  if t.valid k && decide (best.2 < (t.figure k : Int)) then (k, (t.figure k : Int)) else best

/-- The search over all candidates (R154, R160). -/
def TuneIn.search (t : TuneIn) : Nat × Int := candidates.foldl t.consider (0, -1)

/-- `MultInt(k)` (R162). -/
def TuneIn.multInt (t : TuneIn) (k : Nat) : Word := BitVec.ofNat 32 (k * t.fc / t.fref)

/-- `MultFrac(k)` (R162). -/
def TuneIn.multFrac (t : TuneIn) (k : Nat) : BitVec 20 := BitVec.ofNat 20 ((k * t.fc) % t.fref * 2 ^ 20 / t.fref)

/-- The inputs `TUNE` reads (R150). -/
def State.tuneIn (s : State) : TuneIn := { fc := s.fc.toNat, dev := s.dev.toNat, fref := s.fref.toNat }

/-- `SetTune(k, fom, done = 1, fail, ovr)` (R151). -/
def State.setTune (k fom : Nat) (fail ovr : Bool) (s : State) : State :=
  { s with
    k := BitVec.ofNat 8 k
    fom := BitVec.ofNat 2 fom
    mint := if fail then 0 else s.tuneIn.multInt k
    mfrac := if fail then 0 else s.tuneIn.multFrac k
    tstat := tstatBits true fail ovr }

/-- `TuneStep()` (R151). -/
def State.tuneStep (s : State) : State :=
  if s.fref = 0 then ((s.setTune 0 0 true false).raise .cfg).complete
  else if s.kovr ≠ 0 then (s.setTune s.kovr.toNat 0 false true).complete
  else
    let best := s.tuneIn.search
    if best.1 = 0 then ((s.setTune 0 0 true false).raise .noDiv).complete
    else (s.setTune best.1 best.2.toNat false false).complete

/-- `TUNE` (R151): issued in any `MODE`, then one step. -/
def execTune (s : State) : Out :=
  if s.busy then .next s.tuneStep else .next (s.accept Instr.tune.op 0)

end Sys2Proof.Machine
end

