-- ==== Sys2Proof/Machine/Dispatch.lean ====
section
/-! DEFINITION. One arm per command (40_sequencer.md R137). -/

namespace Sys2Proof.Machine

def exec (i : Instr) (s : State) : Host.Outcome State Fault Refusal :=
  match i with
  | .nop => Sys2Proof.Machine.execNop s
  | .init => Sys2Proof.Machine.execInit s
  | .prod n => Sys2Proof.Machine.execProd n s
  | .halt => Sys2Proof.Machine.execHalt s
  | .tune => Sys2Proof.Machine.execTune s

end Sys2Proof.Machine
end

