-- ==== Sys2Proof/Machine/Operands.lean ====
section
/-! DEFINITION. Where operands come from: the command the sequencer executes (40_sequencer.md R137), and the register
that an offset of the host window names, with what it reads as (20_memory.md R83, R88). -/

namespace Sys2Proof.Machine

/-- The command that `CUR_OP` and `PROD_REM` name (R137). -/
def State.command? (s : State) : Option Instr :=
  if s.curOp = 0x00 then some .nop
  else if s.curOp = 0x01 then some .init
  else if s.curOp = 0x02 then some (.prod s.prodRem.toNat)
  else if s.curOp = 0x03 then some .halt
  else if s.curOp = 0x04 then some .tune
  else none

/-- The registers of the host window and the two memory views (R83). -/
inductive Reg where
  | id | param | ctrl | status | err | cmd | rate | outData | outCount | phase | widx | chunk
  | advcnt | rwcnt | smpcnt
  | fc | dev | fref | kovr | k | fom | mint | mfrac | tstat
  | coef (i : Fin 64)
  | dl (j : Fin 127)
  | reserved
deriving DecidableEq, Repr

/-- The named registers at their offsets (R83). -/
def regTable : List (Nat × Reg) :=
  [(0x000, .id), (0x004, .param), (0x008, .ctrl), (0x00C, .status), (0x010, .err), (0x014, .cmd),
   (0x018, .rate), (0x01C, .outData), (0x020, .outCount), (0x024, .phase), (0x028, .widx), (0x02C, .chunk),
   (0x030, .advcnt), (0x034, .rwcnt), (0x038, .smpcnt),
   (0x040, .fc), (0x044, .dev), (0x048, .fref), (0x04C, .kovr), (0x050, .k), (0x054, .fom),
   (0x058, .mint), (0x05C, .mfrac), (0x060, .tstat)]

/-- What lies at an aligned offset below `0x400` (R83, R84). -/
def regAt (off : Nat) : Reg :=
  if h : 0x100 ≤ off ∧ off ≤ 0x1FC then .coef ⟨(off - 0x100) / 4, by omega⟩
  else if h : 0x200 ≤ off ∧ off ≤ 0x3F8 then .dl ⟨(off - 0x200) / 4, by omega⟩
  else (regTable.lookup off).getD .reserved

/-- The value a register reads as (R88; `OUT_DATA`, whose read removes a word, gives the word it would return). -/
def State.readReg (s : State) : Reg → Word
  | .id => Config.idWord
  | .param => BitVec.ofNat 16 s.par.chunkFrames ++ BitVec.ofNat 16 s.par.outDepth
  | .ctrl => (BitVec.ofBool s.stereo).setWidth 32
  | .status => s.statusWord
  | .err => s.err.setWidth 32
  | .cmd => 0
  | .rate => s.rate.setWidth 32
  | .outData => s.pop.1
  | .outCount => BitVec.ofNat 32 s.fifo.length
  | .phase => s.phase
  | .widx => s.widx.setWidth 32
  | .chunk => s.chunkLen ++ s.chunkIdx
  | .advcnt => s.advcnt
  | .rwcnt => s.rwcnt
  | .smpcnt => s.smpcnt
  | .fc => s.fc
  | .dev => s.dev
  | .fref => s.fref
  | .kovr => s.kovr.setWidth 32
  | .k => s.k.setWidth 32
  | .fom => s.fom.setWidth 32
  | .mint => s.mint
  | .mfrac => s.mfrac.setWidth 32
  | .tstat => s.tstat.setWidth 32
  | .coef i => s.coef[i]
  | .dl j => s.dl[j]
  | .reserved => 0

/-- One byte of the host window, in the lane numbering of R85: byte `off % 4` of the register at the aligned offset.
Looking does not remove a word from the FIFO (DESIGN CHOICE, safe: log 12). -/
def State.windowByte (s : State) (off : Nat) : Byte := byteOf (s.readReg (regAt (off / 4 * 4))) (off % 4)

end Sys2Proof.Machine
end

