-- ==== Sys2Proof/Machine/HostPort.lean ====
section
/-! DEFINITION. The host port: issuing a command (40_sequencer.md R131), the host write and the host read
(20_memory.md R87, R88), and the turn of the sequencer (40_sequencer.md R133, R137). -/

namespace Sys2Proof.Machine

/-- `Issue(v)` (R131), in a state with `BUSY = 0`. -/
def State.issue (v : Word) (s : State) : Out :=
  match decode v with
  | .command i => exec i s
  | .illegal _ => .next (s.raise .illegal)

/-- A write to a locked register (10_state.md R33, class RWL). -/
def State.locking (write : State → State) (s : State) : State :=
  if s.mode = .running then s.raise .locked else write s

/-- The `case off of` of R87, reached when `BUSY = 0`: a register of class RO, `DL` and reserved offsets ignore the
write. -/
def State.writeReg (v : Word) (s : State) : Reg → Out
  | .cmd => s.issue v
  | .ctrl => .next (s.locking fun t => { t with stereo := v.getLsbD 0 })
  | .rate => .next (s.locking fun t => { t with rate := v.extractLsb' 0 24 })
  | .coef i => .next (s.locking (State.setCoef i v))
  | .fc => .next { s with fc := v }
  | .dev => .next { s with dev := v }
  | .fref => .next { s with fref := v }
  | .kovr => .next { s with kovr := v.extractLsb' 0 8 }
  | .err | .id | .param | .status | .outData | .outCount | .phase | .widx | .chunk | .advcnt | .rwcnt | .smpcnt
  | .k | .fom | .mint | .mfrac | .tstat | .dl _ | .reserved => .next s

/-- The part of an access that R81 and R82 let through: 32 bits at an aligned offset below `0x400`
(which name a refusal gets: DESIGN CHOICE, safe, log 16). -/
def accessChecked (off width : Nat) (access : Out) : Out :=
  if width ≠ 4 ∨ off % 4 ≠ 0 then .refused .notOneAlignedWord
  else if 0x400 ≤ off then .refused .outsideWindow
  else access

/-- `HostWrite(off, v)` (R87), in R87's order. -/
def State.hostWrite (off : Nat) (v : Word) (s : State) : Out :=
  if regAt off = .ctrl ∧ v.getLsbD 31 = true then .next s.resetBlock
  else if regAt off = .err then .next (s.clearErr (v.extractLsb' 0 9))
  else if s.busy then .next (s.raise .busyWr)
  else s.writeReg v (regAt off)

/-- What the host's read returned (log 1). -/
def State.setRdata (v : Word) (s : State) : State := { s with rdata := v }

/-- `HostRead(off)` (R88): only a read of `OUT_DATA` changes the block (R86). -/
def State.hostRead (off : Nat) (s : State) : State :=
  match regAt off with
  | .outData => s.pop.2.setRdata s.pop.1
  | r => s.setRdata (s.readReg r)

/-- The sequencer's turn (R133): the step of the executing command; without one, nothing
(`noSuchOp`: DEDUCED, safe, log 15). -/
def State.seqTurn (s : State) : Out :=
  if s.busy then
    match s.command? with
    | some i => exec i s
    | none => .fault .noSuchOp
  else .next s

/-- One turn of one agent (DESIGN CHOICE, safe: log 5). `WAIT` is the host waiting for the first state with `BUSY = 0` (30_encoding.md R118): until
then the turn is not used up, and the sequencer steps. -/
def State.turn (t : Turn) (s : State) : Out :=
  match t with
  | .write off width v => accessChecked off width (s.hostWrite off v)
  | .read off width => accessChecked off width (.next (s.hostRead off))
  | .wait => if s.busy then ({ s with agenda := .wait :: s.agenda } : State).seqTurn else .next s
  | .attach src => .next (s.setSrc src)
  | .seq => s.seqTurn
  | .powerOn => .next s.resetBlock

end Sys2Proof.Machine
end

