-- ==== Sys2Proof/Machine/Step.lean ====
section
/-! DEFINITION. One step of the machine: one turn of one agent (00_scope.md R17, 20_memory.md R92). -/

namespace Sys2Proof.Machine

/-- The next turn of the agenda; when no turn is listed, the sequencer's, which weak fairness gives it
(40_sequencer.md R134), and which changes nothing once the run is finished (00_scope.md R18). DESIGN CHOICE, safe but for claims of
fairness: log 5. -/
def step (s : State) : Out :=
  match s.agenda with
  | [] => s.seqTurn
  | t :: ts => ({ s with agenda := ts } : State).turn t

/-- `s` with the host about to write the command word to `CMD` (offset `0x014`) of a block that executes none, so that
the next step issues it. The block fetches nothing (20_memory.md R96): this is where its next command comes from (DESIGN CHOICE,
safe: log 4). -/
def State.withFetchWord (s : State) (nbits w : Nat) : State :=
  { s.complete with agenda := .write 0x014 4 (tableWord nbits w) :: s.agenda }

end Sys2Proof.Machine
end

