-- ==== Sys2Proof/Machine/Program.lean ====
section
/-! DEFINITION. Host programs: the lines of 30_encoding.md R117, the pseudo-instructions of R118 and R119 as the turns
they expand to, and the written form of commands and lines (R116, R117). Text is a list of characters.
DESIGN CHOICE, safe: log 19. -/

namespace Sys2Proof.Machine

/-- `SRC mono [...]` of 42_upsampler.md R197: a file of one-word frames, at its start. -/
def Source.mono (ws : List Word) : Source := .file false (ws.map fun w => ⟨w, 0⟩) 0

/-- `SRC stereo [...]` of 42_upsampler.md R197. -/
def Source.stereo (fs : List Frame) : Source := .file true fs 0

/-- One line of a host program (R117, R118, R119). -/
inductive Line where
  | wr (off : Nat) (v : Word)
  | rd (off : Nat) (expected : Word)
  | cmd (i : Instr)
  | src (src : Source)
  | wait
  | setCoef (i : Nat) (v : Word)
  | prodN (count : Nat)
  | drain (k : Nat)
deriving DecidableEq, Repr

/-- `CMD c` (R117). -/
def cmdTurn (i : Instr) : Turn := .write 0x014 4 (encode i)

/-- `PRODN N` (R119): whole commands of 65535 samples, then the rest. -/
def prodNTurns (count : Nat) : List Turn :=
  (List.replicate (count / 65535) [cmdTurn (.prod 65535), Turn.wait]).flatten
    ++ (if count % 65535 = 0 then [] else [cmdTurn (.prod (count % 65535)), .wait])

/-- The turns a line stands for (R117, R118, R119). -/
def Line.turns : Line → List Turn
  | .wr off v => [.write off 4 v]
  | .rd off _ => [.read off 4]
  | .cmd i => [cmdTurn i]
  | .src source => [.attach source]
  | .wait => [.wait]
  | .setCoef i v => [.write (0x100 + 4 * i) 4 v]
  | .prodN count => prodNTurns count
  | .drain k => List.replicate k (.read 0x01C 4)

/-- The turns of a whole program, line after line, with no turn of the sequencer between them. R117 leaves the
sequencer's steps open and 40_sequencer.md R134 (U17) lets them fall anywhere; in this one of the schedules it steps
only within a `WAIT` and after the last line (DESIGN CHOICE, unsafe for claims about a program: log 22). -/
def programTurns (lines : List Line) : List Turn := (lines.map Line.turns).flatten

/-- The turns `agenda` are those of a program with turns of the sequencer anywhere between them: every interleaving that
40_sequencer.md R134 (U17) allows up to the last line. A claim about a program is made of every such agenda. -/
abbrev Scheduled (lines : List Line) (agenda : List Turn) : Prop :=
  agenda.filter (fun t => decide (t ≠ .seq)) = programTurns lines

/-- The machine after reset with a host about to run a program on it, in the schedule of `programTurns` (DESIGN CHOICE,
unsafe for claims about a program: log 22): a `CMD PROD n` that a `DRAIN n` follows with no `WAIT` between them takes no
sample step before the reads, which find the FIFO empty. Another schedule is `State.reset` with that agenda. -/
def State.runningProgram (lines : List Line) : State := { State.reset with agenda := programTurns lines }

/-- Whether a line's claim about what the host read holds in the state after it (R117, `RD off -> v`). -/
def Line.met (l : Line) (s : State) : Bool :=
  match l with
  | .rd _ expected => s.rdata == expected
  | _ => true

/-! ## Written form -/

/-- The value of a digit in a base of at most 16. -/
def digitValue (base : Nat) (c : Char) : Option Nat :=
  let v :=
    if '0'.toNat ≤ c.toNat ∧ c.toNat ≤ '9'.toNat then c.toNat - '0'.toNat
    else if 'a'.toNat ≤ c.toNat ∧ c.toNat ≤ 'f'.toNat then c.toNat - 'a'.toNat + 10
    else if 'A'.toNat ≤ c.toNat ∧ c.toNat ≤ 'F'.toNat then c.toNat - 'A'.toNat + 10
    else 16
  if v < base then some v else none

/-- Digits, most significant first, after a number read so far. -/
def readDigits (base : Nat) : Nat → List Char → Option Nat
  | n, [] => some n
  | n, c :: cs => (digitValue base c).bind fun d => readDigits base (n * base + d) cs

/-- A decimal or `0x` hexadecimal number (R116). -/
def readNumber : List Char → Option Nat
  | '0' :: 'x' :: c :: cs => readDigits 16 0 (c :: cs)
  | c :: cs => readDigits 10 0 (c :: cs)
  | [] => none

/-- A line up to its comment, which `;` starts (R116). -/
def stripComment (line : List Char) : List Char := line.takeWhile (· != ';')

/-- The tokens of a line; spaces and commas part them. -/
def tokens (line : List Char) : List (List Char) :=
  (line.foldr (fun c (acc : List Char × List (List Char)) =>
      if c == ' ' || c == ',' then
        (if acc.1.isEmpty then acc else ([], acc.1 :: acc.2))
      else (c :: acc.1, acc.2)) ([], [])) |> fun acc => if acc.1.isEmpty then acc.2 else acc.1 :: acc.2

/-- A command from its tokens (R116). -/
def readCommand : List (List Char) → Option Instr
  | [['N', 'O', 'P']] => some .nop
  | [['I', 'N', 'I', 'T']] => some .init
  | [['H', 'A', 'L', 'T']] => some .halt
  | [['T', 'U', 'N', 'E']] => some .tune
  | [['P', 'R', 'O', 'D'], n] => (readNumber n).bind fun v => if v ≤ 65535 then some (.prod v) else none
  | _ => none

/-- A command line of R116. -/
def assemble (line : List Char) : Option Instr := readCommand (tokens (stripComment line))

/-- The register names that may stand for their offsets (R117, 20_memory.md R83). -/
def offsetNames : List (List Char × Nat) :=
  [(['I', 'D'], 0x000), (['P', 'A', 'R', 'A', 'M'], 0x004), (['C', 'T', 'R', 'L'], 0x008),
   (['S', 'T', 'A', 'T', 'U', 'S'], 0x00C), (['E', 'R', 'R'], 0x010), (['C', 'M', 'D'], 0x014),
   (['R', 'A', 'T', 'E'], 0x018), (['O', 'U', 'T', '_', 'D', 'A', 'T', 'A'], 0x01C),
   (['O', 'U', 'T', '_', 'C', 'O', 'U', 'N', 'T'], 0x020), (['P', 'H', 'A', 'S', 'E'], 0x024),
   (['W', 'I', 'D', 'X'], 0x028), (['C', 'H', 'U', 'N', 'K'], 0x02C), (['A', 'D', 'V', 'C', 'N', 'T'], 0x030),
   (['R', 'W', 'C', 'N', 'T'], 0x034), (['S', 'M', 'P', 'C', 'N', 'T'], 0x038), (['F', 'C'], 0x040),
   (['D', 'E', 'V'], 0x044), (['F', 'R', 'E', 'F'], 0x048), (['K', 'O', 'V', 'R'], 0x04C), (['K'], 0x050),
   (['F', 'O', 'M'], 0x054), (['M', 'I', 'N', 'T'], 0x058), (['M', 'F', 'R', 'A', 'C'], 0x05C),
   (['T', 'S', 'T', 'A', 'T'], 0x060)]

/-- An offset: a register name or a number. -/
def readOffset (t : List Char) : Option Nat := (offsetNames.lookup t).or (readNumber t)

/-- A 32-bit value. -/
def readWord (t : List Char) : Option Word :=
  (readNumber t).bind fun v => if v < 2 ^ 32 then some (BitVec.ofNat 32 v) else none

/-- A line of a host program from its tokens (R117 to R119); `SRC` lines are given as terms. -/
def readLine : List (List Char) → Option Line
  | [['W', 'R'], off, v] => (readOffset off).bind fun o => (readWord v).map (Line.wr o)
  | [['R', 'D'], off, ['-', '>'], v] => (readOffset off).bind fun o => (readWord v).map (Line.rd o)
  | ['C', 'M', 'D'] :: command => (readCommand command).map Line.cmd
  | [['W', 'A', 'I', 'T']] => some .wait
  | [['S', 'E', 'T', 'C', 'O', 'E', 'F'], i, v] =>
    (readNumber i).bind fun n => if n ≤ 63 then (readWord v).map (Line.setCoef n) else none
  | [['P', 'R', 'O', 'D', 'N'], n] =>
    (readNumber n).bind fun v => if 65535 < v then some (.prodN v) else none
  | [['D', 'R', 'A', 'I', 'N'], k] => (readNumber k).map Line.drain
  | _ => none

/-- A written line of a host program. -/
def assembleLine (line : List Char) : Option Line := readLine (tokens (stripComment line))

end Sys2Proof.Machine
end

