-- ==== Sys2Proof/Machine/ReferenceKernel.lean ====
section
/-! DEFINITION. The reference kernel of 43_fir.md R223, which the HOST computes and loads. The block does not compute
it and no step uses it: it is here for claims about a block loaded with it. In exact reals, before the rounding.
DESIGN CHOICE, unsafe for claims about a host's kernel bit for bit: log 14. -/

namespace Sys2Proof.Machine

/-- `fc` of R223: the input Nyquist, clamped to the output Nyquist. -/
noncomputable def cutoff (rate : Nat) : ℝ := (min rate Config.outRate : Nat) / 2

/-- `raw(m)` of R223: the ideal low-pass response. -/
noncomputable def rawTap (rate : Nat) (m : Int) : ℝ :=
  if m = 0 then 2 * cutoff rate / Config.outRate
  else Real.sin (2 * Real.pi * cutoff rate * m / Config.outRate) / (Real.pi * m)

/-- `w(m)` of R223: the Hamming window of length 127. -/
noncomputable def hamming (m : Int) : ℝ := 0.54 + 0.46 * Real.cos (Real.pi * m / 63)

/-- `S` of R223. -/
noncomputable def kernelSum (rate : Nat) : ℝ := ∑ m ∈ Finset.Icc (-63 : Int) 63, rawTap rate m * hamming m

/-- `hr(m)` of R223. -/
noncomputable def kernelTap (rate : Nat) (m : Int) : ℝ := rawTap rate m * hamming m / kernelSum rate

/-- The real number that `COEF[i]` rounds (R223): the centre is halved, since the datapath applies it twice. -/
noncomputable def referenceCoef (rate : Nat) (i : Fin 64) : ℝ :=
  if i.val < 63 then kernelTap rate (63 - i.val) else kernelTap rate 0 / 2

/-- `w` is a binary32 number nearest to `x`. -/
def NearestWord (w : Word) (x : ℝ) : Prop :=
  isFinite w = true ∧ ∀ c : Word, isFinite c = true →
    |(value w : ℝ) / 2 ^ 149 - x| ≤ |(value c : ℝ) / 2 ^ 149 - x|

/-- The block's coefficients are the reference kernel for `rate`, each rounded to nearest. -/
def State.HoldsReferenceKernel (s : State) (rate : Nat) : Prop :=
  ∀ i : Fin 64, NearestWord (s.coefAt i) (referenceCoef rate i)

end Sys2Proof.Machine
end

