-- ==== Sys2Proof/Safety.lean ====
section
/-! DEFINITION. What holds between any two steps (10_state.md R64), the laws of a run in progress (42_upsampler.md R193,
R195; 44_baseband_commands.md R248), and what a safe run is, in the terms claims use. -/

namespace Sys2Proof.Machine

/-! ## The invariants of R64 -/

/-- The parameters are in their legal ranges (00_scope.md R8). -/
abbrev State.ParamsOk (s : State) : Prop := s.par.Legal

/-- `0 <= PHASE < OUT_RATE` in `RUNNING`, and `0 <= WIDX <= 126` (R64). R64 gives the first clause for every `MODE`, but
a failed sample step stores the partial phase (44_baseband_commands.md R244), which is at or above `OUT_RATE` where the
step owed two advances or more: see assumption log 8. -/
abbrev State.DatapathOk (s : State) : Prop :=
  (s.mode = .running → s.phase.toNat < Config.outRate) ∧ s.widx.toNat ≤ 126

/-- The chunk and FIFO clauses of R64. -/
abbrev State.BuffersOk (s : State) : Prop :=
  Memory.wf s ∧ (s.chunkLen = 0 ∨ s.chunkIdx.toNat < s.chunkLen.toNat)

/-- `BUSY = 0` implies `CUR_OP = 0` and `PROD_REM = 0` (R64); while `BUSY = 1`, `CUR_OP` is a command's (40_sequencer.md
R137), only a `PROD` owes samples (R37), and a `PROD` executes only in `RUNNING` (R131). -/
abbrev State.SequencerOk (s : State) : Prop :=
  (s.busy = false → s.curOp = 0 ∧ s.prodRem = 0) ∧
  (s.busy = true → s.curOp.toNat ≤ 4 ∧ (s.curOp ≠ 0x02 → s.prodRem = 0) ∧ (s.curOp = 0x02 → s.mode = .running))

/-- In `RUNNING`: `SMPCNT >= 1` implies `CHUNK_LEN >= 1` (R64); and what makes it so: the rate is not 0, and while no
chunk has been read the next phase step advances (42_upsampler.md R194). -/
abbrev State.RunOk (s : State) : Prop :=
  s.mode = .running →
    s.rate ≠ 0 ∧ (s.chunkLen = 0 → Config.outRate ≤ s.phase.toNat + s.rate.toNat) ∧
      (1 ≤ s.smpcnt.toNat → 1 ≤ s.chunkLen.toNat)

/-- The invariants of R64, with what they rest on. -/
abbrev State.Inv (s : State) : Prop :=
  s.ParamsOk ∧ s.DatapathOk ∧ s.BuffersOk ∧ s.SequencerOk ∧ s.RunOk

/-! ## The laws of a run in progress -/

/-- In `RUNNING`, with `A` the advances and `M` the samples since `INIT`: `192000 · A + PHASE = P0 + M · RATE`, the
counters are `A` and `M` modulo 2^32, and `WIDX = M mod 127` (42_upsampler.md R193; 44_baseband_commands.md R248). -/
def State.CountLaw (s : State) : Prop :=
  s.mode = .running →
    ∃ a m : Nat,
      Config.outRate * a + s.phase.toNat = initialPhase s.rate.toNat + m * s.rate.toNat ∧
        s.advcnt = BitVec.ofNat 32 a ∧ s.smpcnt = BitVec.ofNat 32 m ∧ s.widx.toNat = m % 127

/-- `n` advances in a row (R186). -/
def State.advances : Nat → State → Advanced
  | 0, s => .ok s
  | n + 1, s =>
    match s.advance with
    | .ok t => t.advances n
    | other => other

/-- A file of the shape `CTRL.STEREO` declares is attached, at its start, and the chunk is discarded, as after an
`INIT` issued with the source at its start (42_upsampler.md R195). -/
abbrev State.FreshFile (s : State) (stream : List Frame) : Prop :=
  s.src = .file s.stereo stream 0 ∧ s.chunkLen = 0 ∧ s.chunkIdx = 0 ∧ s.rwcnt = 0

/-! ## Safe runs -/

/-- The step answers a next state. -/
def Proceeds (o : Out) : Prop := ∃ t, o = .next t

/-- The next turn is one that the spec lets its agent take: the host's accesses are aligned words in the window
(20_memory.md R81, R82). -/
def Turn.lawful : Turn → Bool
  | .write off width _ => width == 4 && off % 4 == 0 && decide (off < 0x400)
  | .read off width => width == 4 && off % 4 == 0 && decide (off < 0x400)
  | .wait => true
  | .attach _ => true
  | .seq => true
  | .powerOn => true

/-- A source that never answers with more frames than it was asked for (42_upsampler.md R185). -/
def Source.dutiful (n : Nat) : Source → Bool
  | .script reads _ => reads.all fun r =>
    match r with
    | .frames fs => decide (fs.length ≤ n)
    | .error => true
  | .file _ _ _ => true
  | .error => true
  | .silent => true

/-- The turn to come is a reset of the block: the power-on reset, or a write of `CTRL` with bit 31 set
(70_reset_and_hazards.md R300). -/
def State.resetsNext (s : State) : Bool :=
  match s.agenda with
  | .powerOn :: _ => true
  | .write off width v :: _ => width == 4 && off == 0x008 && v.getLsbD 31
  | _ => false

/-- The step to come is the sequencer's: its turn is next, or the host waits, or no turn is listed. -/
def State.seqNext (s : State) : Bool :=
  s.busy &&
    match s.agenda with
    | [] => true
    | .seq :: _ => true
    | .wait :: _ => true
    | _ => false

/-- The step to come is the sequencer's step of the command whose opcode is `op`. -/
def State.runsNext (s : State) (op : BitVec 8) : Bool := s.seqNext && s.curOp == op

end Sys2Proof.Machine
end

