-- ==== Sys2Proof/Certificates/Slice0/Obligations.lean ====
section
/-! DEFINITION. The statements for the provers. `spec/` rules are named R<n>; OBLIGATIONS.json says which a statement
formalises. -/

open Sys2Proof Sys2Proof.Machine

/-! ## Encoding -/

/-- R112, R114: words written out from the opcode map decode to their commands. -/
def Obligations.DecodeReadsWrittenWords : Prop :=
  decode 0x00000000 = .command .nop ∧ decode 0x01000000 = .command .init ∧
  decode 0x0200000A = .command (.prod 10) ∧ decode 0x0200FFFF = .command (.prod 65535) ∧
  decode 0x03000000 = .command .halt ∧ decode 0x04000000 = .command .tune ∧
  decode 0x02800005 = .illegal .reservedBits ∧ decode 0x05000000 = .illegal .unassignedOp

/-- R115: the words of the five commands; decoding an encoded command gives it back; encoding a decoded word gives it
back. -/
def Obligations.DecodeInvertsEncode : Prop :=
  (encode .nop = 0x00000000 ∧ encode .init = 0x01000000 ∧ encode .halt = 0x03000000 ∧ encode .tune = 0x04000000 ∧
    ∀ n, n ≤ 65535 → encode (.prod n) = 0x02000000 ||| BitVec.ofNat 32 n) ∧
  (∀ i : Instr, i.wellFormed = true → decode (encode i) = .command i) ∧
  (∀ (v : Word) (i : Instr), decode v = .command i → encode i = v ∧ i.wellFormed = true)

/-- R113: which words are illegal, that every other word is a command, and what writing an illegal one to `CMD` does. -/
def Obligations.IllegalWordsAreExactlyTheReservedOnes : Prop :=
  (∀ v : Word,
    (∃ why, decode v = .illegal why) ↔
      (0x05 ≤ (v.extractLsb' 24 8).toNat ∨
        ((v.extractLsb' 24 8 = 0x00 ∨ v.extractLsb' 24 8 = 0x01 ∨ v.extractLsb' 24 8 = 0x03 ∨
            v.extractLsb' 24 8 = 0x04) ∧ v.extractLsb' 0 24 ≠ 0) ∨
        (v.extractLsb' 24 8 = 0x02 ∧ v.extractLsb' 16 8 ≠ 0))) ∧
  (∀ v : Word, (¬ ∃ why, decode v = .illegal why) →
    ∃ i, decode v = .command i ∧
      (i = .nop ∨ i = .init ∨ (∃ n, n ≤ 65535 ∧ i = .prod n) ∨ i = .halt ∨ i = .tune)) ∧
  (∀ (s : State) (v : Word), s.busy = false → (∃ why, decode v = .illegal why) →
    s.hostWrite 0x014 v = .next { s with err := s.err ||| 0x001 })

/-! ## From the host's write to the sequencer's step -/

/-- R130, R131, R137: a step whose turn writes a command word to an idle sequencer, and a step of a busy sequencer, run
the decoded command. Two clauses are the model's own choice (DESIGN CHOICE, assumption log 5): that a step with no turn
listed is the sequencer's, and that a `WAIT` is a turn which stays while the sequencer steps. -/
def Obligations.StepRunsTheDecodedCommand : Prop :=
  (∀ (s : State) (ts : List Turn) (v : Word) (i : Instr), s.agenda = .write 0x014 4 v :: ts → s.busy = false →
    decode v = .command i → step s = exec i { s with agenda := ts }) ∧
  (∀ (s : State) (i : Instr), s.busy = true → s.command? = some i →
    (s.agenda = [] → step s = exec i s) ∧
    (∀ ts, s.agenda = .seq :: ts → step s = exec i { s with agenda := ts }) ∧
    (∀ ts, s.agenda = .wait :: ts → step s = exec i s))

/-- R131, R137: the command that an issue leaves executing is the one that was issued. -/
def Obligations.IssuedCommandIsTheOneExecuted : Prop :=
  ∀ (i : Instr) (s t : State), i.wellFormed = true → s.busy = false → exec i s = .next t → t.busy = true →
    t.command? = some i

/-- The model's own `withFetchWord` (assumption log 4): the very next step runs the word's command. -/
def Obligations.FetchWordIsRunNext : Prop :=
  ∀ (s : State) (w : Nat) (i : Instr), w < 2 ^ 32 → decode (BitVec.ofNat 32 w) = .command i →
    step (s.withFetchWord 32 w) = exec i { s with busy := false, curOp := 0, prodRem := 0 }

/-- R131, R132: what a write to `CMD` does when `BUSY = 0`, for every word and `MODE`; when `BUSY = 1` it is refused. -/
def Obligations.IssueAcceptsByModeAndWord : Prop :=
  ∀ (s : State) (v : Word),
    (s.busy = true → s.hostWrite 0x014 v = .next { s with err := s.err ||| 0x002 }) ∧
    (s.busy = false →
      (∀ why, decode v = .illegal why → s.hostWrite 0x014 v = .next { s with err := s.err ||| 0x001 }) ∧
      (∀ n, decode v = .command (.prod n) →
        (s.mode ≠ .running → s.hostWrite 0x014 v = .next { s with err := s.err ||| 0x004 }) ∧
        (s.mode = .running →
          s.hostWrite 0x014 v =
            .next { s with busy := true, curOp := v.extractLsb' 24 8, prodRem := BitVec.ofNat 16 n })) ∧
      (∀ i, decode v = .command i → (∀ n, i ≠ .prod n) →
        s.hostWrite 0x014 v = .next { s with busy := true, curOp := v.extractLsb' 24 8, prodRem := 0 }))

/-! ## NOP, HALT, INIT -/

/-- R135: `NOP` completes and changes nothing but the sequencer triple; it is accepted in every `MODE`. -/
def Obligations.NopOnlyCompletes : Prop :=
  encode .nop = 0x00000000 ∧
  (∀ s : State, s.busy = true → exec .nop s = .next { s with busy := false, curOp := 0, prodRem := 0 }) ∧
  (∀ s : State, s.busy = false → exec .nop s = .next { s with busy := true, curOp := 0x00, prodRem := 0 }) ∧
  (∀ (s : State) (x : BitVec 24), s.busy = false → x ≠ 0 →
    s.hostWrite 0x014 ((0x00 : BitVec 8) ++ x) = .next { s with err := s.err ||| 0x001 })

/-- R136: `HALT` leaves `RUNNING` or `FAULT` and keeps everything else but the sequencer triple; it cannot stop a command
in progress. -/
def Obligations.HaltGoesIdleAndKeepsTheRest : Prop :=
  encode .halt = 0x03000000 ∧
  (∀ s : State, s.busy = true →
    exec .halt s = .next { s with mode := .idle, busy := false, curOp := 0, prodRem := 0 }) ∧
  (∀ s : State, s.busy = false → exec .halt s = .next { s with busy := true, curOp := 0x03, prodRem := 0 }) ∧
  (∀ s : State, s.busy = true → s.hostWrite 0x014 (encode .halt) = .next { s with err := s.err ||| 0x002 }) ∧
  (∀ (s : State) (x : BitVec 24), s.busy = false → x ≠ 0 →
    s.hostWrite 0x014 ((0x03 : BitVec 8) ++ x) = .next { s with err := s.err ||| 0x001 })

/-- R240: `INIT` starts a run, or fails with `E_CFG` where `RATE = 0`. -/
def Obligations.InitStartsARun : Prop :=
  encode .init = 0x01000000 ∧
  (∀ s : State, s.busy = false → exec .init s = .next { s with busy := true, curOp := 0x01, prodRem := 0 }) ∧
  (∀ s : State, s.busy = true → s.rate = 0 →
    exec .init s = .next { s with err := s.err ||| 0x010, busy := false, curOp := 0, prodRem := 0 }) ∧
  (∀ s : State, s.busy = true → s.rate ≠ 0 →
    exec .init s =
      .next { s with
        phase := BitVec.ofNat 32 (max 0 ((192000 : Int) - s.rate.toNat)).toNat
        dl := Vector.replicate 127 0x00000000
        widx := 0
        chunkIdx := 0
        chunkLen := 0
        fifo := []
        advcnt := 0
        rwcnt := 0
        smpcnt := 0
        mode := .running
        busy := false
        curOp := 0
        prodRem := 0 }) ∧
  (∀ (s : State) (x : BitVec 24), s.busy = false → x ≠ 0 →
    s.hostWrite 0x014 ((0x01 : BitVec 8) ++ x) = .next { s with err := s.err ||| 0x001 }) ∧
  (∀ s : State, s.ParamsOk → s.busy = true → s.rate = 48000 →
    ∃ t, exec .init s = .next t ∧ t.phase = 144000 ∧ t.readReg .chunk = 0 ∧ t.readReg .outCount = 0 ∧
      t.statusWord = 0x0000000A)

/-! ## PROD -/

/-- R242: the sample step of `PROD`, in its three cases: nothing owed (with a full FIFO too, which is the model's reading,
DEDUCED in assumption log 17, since R134 sums the enabling condition up without `PROD_REM`), and, where the step is
enabled, a phase step that succeeds or fails. The state `u` is the one the phase step leaves; the sample is inserted,
the filter evaluated over the line that holds it, and the result pushed. -/
def Obligations.ProdStepMakesOneSample : Prop :=
  ∀ (n : Nat) (s : State), s.busy = true →
    (s.prodRem = 0 → exec (.prod n) s = .next { s with busy := false, curOp := 0, prodRem := 0 }) ∧
    (s.prodRem ≠ 0 → s.fifo.length < s.par.outDepth →
      (∀ u v : State, s.phaseStep = .ok u → v = u.insert u.currentSample →
        exec (.prod n) s =
          .next
            { v with
              fifo := v.fifo ++ [v.evaluate]
              smpcnt := v.smpcnt + 1
              prodRem := v.prodRem - 1
              busy := if v.prodRem - 1 = 0 then false else v.busy
              curOp := if v.prodRem - 1 = 0 then 0 else v.curOp }) ∧
      (∀ (e : Cause) (p : Nat) (u : State), s.phaseStep = .fail e p u →
        exec (.prod n) s =
          .next
            { u with
              phase := BitVec.ofNat 32 p
              mode := .fault
              err := u.err ||| e.bit
              busy := false
              curOp := 0
              prodRem := 0 }))

/-- R245: `PROD 0` is accepted in `RUNNING` and takes one step that only completes. That it does so also with a full
FIFO is the model's reading (DEDUCED, assumption log 17): R134 says that a step of `PROD` is not enabled then. -/
def Obligations.ProdZeroOnlyCompletes : Prop :=
  (∀ s : State, s.busy = false → s.mode = .running →
    exec (.prod 0) s = .next { s with busy := true, curOp := 0x02, prodRem := 0 }) ∧
  (∀ s : State, s.busy = true → s.prodRem = 0 →
    exec (.prod 0) s = .next { s with busy := false, curOp := 0, prodRem := 0 })

/-- R243: while the FIFO is full a `PROD` that still owes samples holds with `STALL` = 1; a host read of `OUT_DATA`
ends the hold; and no step of a `PROD` drops or overwrites a word of the FIFO. The rule says that the sequencer has no
enabled step; that `exec` then answers the same state as next is the model's rendering of it (DEDUCED, assumption
log 10). -/
def Obligations.ProdHoldsWhileTheFifoIsFull : Prop :=
  (∀ (n : Nat) (s : State), s.busy = true → s.curOp = 0x02 → s.prodRem ≠ 0 → s.fifo.length = s.par.outDepth →
    exec (.prod n) s = .next s ∧ s.stall = true ∧
      (0 < s.par.outDepth →
        (s.hostRead 0x01C).stall = false ∧ (s.hostRead 0x01C).fifo.length < (s.hostRead 0x01C).par.outDepth ∧
          ∃ w, s.fifo = w :: (s.hostRead 0x01C).fifo ∧ (s.hostRead 0x01C).rdata = w)) ∧
  (∀ (n : Nat) (s t : State), exec (.prod n) s = .next t → s.fifo <+: t.fifo)

/-- R244: a failed sample step. The sample is not produced; the partial phase is kept; `ADVCNT` counts the `a` advances
that succeeded; the run is at fault, and `PROD` is refused until `INIT`. -/
def Obligations.FailedSampleKeepsTheLine : Prop :=
  (∀ (n : Nat) (s u : State) (e : Cause) (p : Nat), s.busy = true → s.prodRem ≠ 0 →
    s.fifo.length < s.par.outDepth → s.phaseStep = .fail e p u →
    (e = .audioIo ∨ e = .emptySrc) ∧
    (∃ t, exec (.prod n) s = .next t ∧ t.phase = BitVec.ofNat 32 p ∧ t.mode = .fault ∧ t.err = s.err ||| e.bit ∧
      t.busy = false ∧ t.curOp = 0 ∧ t.prodRem = 0 ∧ t.dl = s.dl ∧ t.widx = s.widx ∧ t.fifo = s.fifo ∧
      t.smpcnt = s.smpcnt ∧ t.chunk = u.chunk ∧ t.chunkIdx = u.chunkIdx ∧ t.chunkLen = u.chunkLen ∧
      t =
        { s with
          phase := t.phase, mode := .fault, err := t.err, advcnt := t.advcnt, rwcnt := t.rwcnt
          chunkIdx := t.chunkIdx, chunkLen := t.chunkLen, chunk := t.chunk
          busy := false, curOp := 0, prodRem := 0
          src := t.src, srcReqs := t.srcReqs } ∧
      ∃ a, t.advcnt = s.advcnt + BitVec.ofNat 32 a ∧
        p + 192000 * (a + 1) = s.phase.toNat + s.rate.toNat)) ∧
  (∀ (n : Nat) (s : State), s.busy = false → s.mode = .fault →
    exec (.prod n) s = .next { s with err := s.err ||| 0x004 })

/-- R241, R242: from every state of a run in which a `PROD` owes samples and the FIFO has room, the sample step
produces its sample where the phase step needs no new frame, and where a file of R197 that is not empty is attached.
Nothing else changes: of the two memories in the window, no byte but those of the delay-line entry at `WIDX`. That a
file of the other shape than `CTRL.STEREO` also delivers its own number of frames is the model's choice (DESIGN CHOICE,
assumption log 9). -/
def Obligations.ProdProducesItsSample : Prop :=
  ∀ (n : Nat) (s : State), s.Inv → s.busy = true → s.curOp = 0x02 → s.prodRem ≠ 0 →
    s.fifo.length < s.par.outDepth →
    (s.phase.toNat + s.rate.toNat < 192000 ∨
      ∃ stereo stream pos, s.src = .file stereo stream pos ∧ stream ≠ []) →
    ∃ (t : State) (y : Word), exec (.prod n) s = .next t ∧ t.fifo = s.fifo ++ [y] ∧
      t.smpcnt = s.smpcnt + 1 ∧ t.mode = .running ∧ t.err = s.err ∧
      t.phase.toNat = (s.phase.toNat + s.rate.toNat) % 192000 ∧
      t.widx.toNat = (s.widx.toNat + 1) % 127 ∧
      (t.busy = false ↔ s.prodRem = 1) ∧
      t =
        { s with
          phase := t.phase, advcnt := t.advcnt, rwcnt := t.rwcnt
          chunkIdx := t.chunkIdx, chunkLen := t.chunkLen, chunk := t.chunk
          dl := t.dl, widx := t.widx, fifo := t.fifo, smpcnt := t.smpcnt
          prodRem := s.prodRem - 1, busy := t.busy, curOp := t.curOp
          src := t.src, srcReqs := t.srcReqs } ∧
      ∀ off, (0x100 ≤ off ∧ off < 0x200) ∨ (0x200 ≤ off ∧ off < 0x3FC ∧ off / 4 * 4 ≠ 0x200 + 4 * s.widx.toNat) →
        t.windowByte off = s.windowByte off

/-- R314: where the phase step comes to an advance that needs a frame, after any number `a` of advances that succeeded,
and the source never answers, the `PROD` stays unfinished and nothing of the step has happened (DEDUCED, assumption
log 10), and the soft reset leaves that state; so it is with the silent source wherever more advances are owed than the
chunk has frames left. R185 (and U8 of 93_implementation_defined.md): where the source answers that request, or the read
after the rewind, with more frames than it was asked for, the model refuses (assumption log 11). -/
def Obligations.UndutifulSourceHoldsOrIsRefused : Prop :=
  (∀ (n a : Nat) (s v : State), s.busy = true → s.prodRem ≠ 0 → s.fifo.length < s.par.outDepth →
    a < (s.phase.toNat + s.rate.toNat) / 192000 → s.advances a = .ok v →
    ¬ v.chunkIdx.toNat + 1 < v.chunkLen.toNat →
    (v.src = .silent → exec (.prod n) s = .next s) ∧
    (∀ fs reads rewinds, v.src = .script (.frames fs :: reads) rewinds → v.par.chunkFrames < fs.length →
      exec (.prod n) s = .refused .sourceOverrun) ∧
    (∀ (u w : State) fs reads rewinds, v.srcRead = .answered (.frames []) u → u.srcRewind = .answered .ok w →
      w.src = .script (.frames fs :: reads) rewinds → w.par.chunkFrames < fs.length →
      exec (.prod n) s = .refused .sourceOverrun)) ∧
  (∀ (n : Nat) (s : State), s.busy = true → s.prodRem ≠ 0 → s.fifo.length < s.par.outDepth → s.src = .silent →
    192000 ≤ s.phase.toNat + s.rate.toNat →
    s.chunkLen.toNat ≤ s.chunkIdx.toNat + (s.phase.toNat + s.rate.toNat) / 192000 →
    exec (.prod n) s = .next s ∧ s.hostWrite 0x008 0x80000000 = .next s.resetBlock ∧ s.resetBlock.busy = false)

/-! ## The upsampler -/

/-- R183, R192: with `p = PHASE + RATE`, a phase step is `q = floor(p / 192000)` advances in a row, after which the
remainder is stored as the phase; it fails, with the phase of the last subtraction, where one of them fails. With no
advance owed only the phase changes, and the filter input is that of the state before. In any case a step that succeeds
touches only the phase, the chunk state, the two counters and the source. -/
def Obligations.PhaseStepIsExact : Prop :=
  ∀ (s : State) (p q : Nat), p = s.phase.toNat + s.rate.toNat → q = p / 192000 →
    (∀ t, s.phaseStep = .ok t ↔
      ∃ u, s.advances q = .ok u ∧ t = { u with phase := BitVec.ofNat 32 (p % 192000) }) ∧
    (∀ (e : Cause) (r : Nat) (u : State), s.phaseStep = .fail e r u ↔
      ∃ a v, a < q ∧ s.advances a = .ok v ∧ v.advance = .fail e u ∧ r = p - 192000 * (a + 1)) ∧
    (s.phaseStep = .unanswered ↔ ∃ a v, a < q ∧ s.advances a = .ok v ∧ v.advance = .unanswered) ∧
    (s.phaseStep = .overrun ↔ ∃ a v, a < q ∧ s.advances a = .ok v ∧ v.advance = .overrun) ∧
    (p < 192000 → ∀ t : State, t = { s with phase := BitVec.ofNat 32 p } →
      s.phaseStep = .ok t ∧ t.currentSample = s.currentSample) ∧
    (∀ t : State, s.phaseStep = .ok t →
      t.phase.toNat = p % 192000 ∧ t.advcnt = s.advcnt + BitVec.ofNat 32 q ∧
      t =
        { s with
          phase := t.phase
          advcnt := t.advcnt
          rwcnt := t.rwcnt
          chunkIdx := t.chunkIdx
          chunkLen := t.chunkLen
          chunk := t.chunk
          src := t.src
          srcReqs := t.srcReqs })

/-- R196: in every state whose phase is below 192000, a phase step makes at most 88 advances, each with at most two
source reads and one rewind. -/
def Obligations.PhaseStepIsBounded : Prop :=
  ∀ s : State, s.phase.toNat < 192000 →
    (s.phase.toNat + s.rate.toNat) / 192000 ≤ 88 ∧
    (∀ t, s.phaseStep = .ok t → t.srcReqs ≤ s.srcReqs + 3 * 88) ∧
    (∀ e p t, s.phaseStep = .fail e p t → t.srcReqs ≤ s.srcReqs + 3 * 88)

/-- R186: one frame advance. -/
def Obligations.AdvanceTakesTheNextFrame : Prop :=
  ∀ s : State,
    (s.chunkIdx.toNat + 1 < s.chunkLen.toNat →
      s.advance = .ok { s with chunkIdx := s.chunkIdx + 1, advcnt := s.advcnt + 1 }) ∧
    (¬ s.chunkIdx.toNat + 1 < s.chunkLen.toNat →
      (∀ u, s.refill = .ok u → s.advance = .ok { u with advcnt := u.advcnt + 1 }) ∧
      (∀ e u, s.refill = .fail e u → s.advance = .fail e u))

/-- R187: what a refill stores; that it fails with `E_AUDIO_IO` or `E_EMPTY_SRC` only; and that a failure keeps the
chunk, makes at most two reads and one rewind, and keeps the count of a rewind that succeeded. -/
def Obligations.RefillStoresTheFramesRead : Prop :=
  ∀ s : State,
    (∀ (f : Frame) (fs : List Frame) (u : State), s.srcRead = .answered (.frames (f :: fs)) u →
      s.refill =
        .ok { u with
          chunk := (f :: fs) ++ s.chunk.drop (fs.length + 1)
          chunkLen := BitVec.ofNat 16 (fs.length + 1)
          chunkIdx := 0 }) ∧
    (∀ u, s.srcRead = .answered .error u → s.refill = .fail .audioIo u) ∧
    (∀ u, s.srcRead = .answered (.frames []) u →
      (∀ v, u.srcRewind = .answered .error v → s.refill = .fail .audioIo v) ∧
      (∀ v w : State, u.srcRewind = .answered .ok v → w = { v with rwcnt := s.rwcnt + 1 } →
        (∀ x, w.srcRead = .answered .error x → s.refill = .fail .audioIo x) ∧
        (∀ x, w.srcRead = .answered (.frames []) x → s.refill = .fail .emptySrc x) ∧
        (∀ (f : Frame) (fs : List Frame) (x : State), w.srcRead = .answered (.frames (f :: fs)) x →
          s.refill =
            .ok { x with
              chunk := (f :: fs) ++ s.chunk.drop (fs.length + 1)
              chunkLen := BitVec.ofNat 16 (fs.length + 1)
              chunkIdx := 0 }))) ∧
    (∀ e t, s.refill = .fail e t →
      t = { s with rwcnt := t.rwcnt, src := t.src, srcReqs := t.srcReqs } ∧ t.srcReqs ≤ s.srcReqs + 3 ∧
        (t.rwcnt = s.rwcnt ∨ t.rwcnt = s.rwcnt + 1)) ∧
    (∀ t, s.refill = .ok t → t.srcReqs ≤ s.srcReqs + 3)

/-- R197: the reference file source, which starts at position 0, and the error source, that a reset does not reach the
source, and that every answer R184 allows is possible. -/
def Obligations.FileSourceReadsItsStream : Prop :=
  (∀ ws : List Word, Source.mono ws = .file false (ws.map fun w => ⟨w, 0⟩) 0) ∧
  (∀ fs : List Frame, Source.stereo fs = .file true fs 0) ∧
  (∀ (s : State) (stream : List Frame) (pos : Nat), s.src = .file s.stereo stream pos →
    s.srcRead =
      .answered (.frames ((stream.drop pos).take (min s.par.chunkFrames (stream.length - pos))))
        { s with
          src := .file s.stereo stream (pos + min s.par.chunkFrames (stream.length - pos))
          srcReqs := s.srcReqs + 1 } ∧
    s.srcRewind = .answered .ok { s with src := .file s.stereo stream 0, srcReqs := s.srcReqs + 1 } ∧
    s.resetBlock.src = .file s.stereo stream pos) ∧
  (∀ s : State, s.src = .error →
    s.srcRead = .answered .error { s with srcReqs := s.srcReqs + 1 } ∧
    s.srcRewind = .answered .error { s with srcReqs := s.srcReqs + 1 }) ∧
  (∀ (s : State) (fs : List Frame) (r : RewindAnswer), fs.length ≤ s.par.chunkFrames →
    s.src = .script [.frames fs] [r] →
    s.srcRead = .answered (.frames fs) { s with src := .script [] [r], srcReqs := s.srcReqs + 1 } ∧
    s.srcRewind = .answered r { s with src := .script [.frames fs] [], srcReqs := s.srcReqs + 1 })

/-- R191: the filter input: the mono word unchanged, or half the rounded sum of the two channels; after a successful
phase step the entry read is always one that a refill has written. -/
def Obligations.CurrentSampleIsMonoWordOrMean : Prop :=
  (∀ (s : State) (f : Frame), s.chunk[s.chunkIdx.toNat]? = some f →
    (s.stereo = false → s.currentSample = f.left) ∧
    (s.stereo = true → s.currentSample = fmul32 (fadd32 f.left f.right) 0x3F000000)) ∧
  (∀ s u : State, s.Inv → s.mode = .running → s.phaseStep = .ok u →
    u.chunkIdx.toNat < u.chunkLen.toNat ∧ ∃ f, u.chunk[u.chunkIdx.toNat]? = some f)

/-- R193, R248: the count law is kept by every step: in a run, `192000 · ADVCNT + PHASE = P0 + SMPCNT · RATE` before the
counters wrap, and `WIDX` is the sample count modulo 127. `INIT` establishes it. -/
def Obligations.CountLawIsKept : Prop :=
  (∀ s t : State, s.Inv → s.CountLaw → step s = .next t → t.CountLaw) ∧ State.reset.CountLaw

/-- R195: with a file of `L >= 1` frames at its start after an `INIT`, after `n + 1` advances the source has rewound
`floor(n / L)` times and the frame in use is frame `n mod L` of the stream, for every `CHUNK_FRAMES`. -/
def Obligations.FileLoopsOnEndOfStream : Prop :=
  ∀ (s : State) (stream : List Frame) (n : Nat), s.ParamsOk → s.FreshFile stream → stream ≠ [] →
    ∃ t, s.advances (n + 1) = .ok t ∧ t.rwcnt = BitVec.ofNat 32 (n / stream.length) ∧
      stream[n % stream.length]? = some (t.chunkAt t.chunkIdx.toNat)

/-! ## The filter -/

/-- R215: the insert stores the word unchanged at the write index, moves the index on, and touches nothing else. -/
def Obligations.InsertWritesOneEntry : Prop :=
  ∀ (s : State) (w : Word), s.widx.toNat ≤ 126 →
    (s.insert w).dl[s.widx.toNat]? = some w ∧
    (∀ j, j ≠ s.widx.toNat → (s.insert w).dl[j]? = s.dl[j]?) ∧
    (s.insert w).widx.toNat = (s.widx.toNat + 1) % 127 ∧
    s.insert w = { s with dl := (s.insert w).dl, widx := (s.insert w).widx }

/-- R216, R218: after an insert the newest entry is the word inserted and the oldest is the next to be overwritten; the
63rd newest and the 63rd oldest are one entry. -/
def Obligations.NewestAndOldestWalkOutward : Prop :=
  ∀ (s u : State) (w : Word), s.widx.toNat ≤ 126 → u = s.insert w →
    u.dlAt (newest u.widx.toNat 0) = w ∧
    (∀ v : Word, (u.insert v).dlAt (oldest u.widx.toNat 0) = v) ∧
    (∀ i, i < 64 → (dlIndex (newest u.widx.toNat i)).val = (u.widx.toNat + 126 - i) % 127 ∧
      (dlIndex (oldest u.widx.toNat i)).val = (u.widx.toNat + i) % 127) ∧
    dlIndex (newest u.widx.toNat 63) = dlIndex (oldest u.widx.toNat 63)

/-- R217: the evaluation, term by term from coefficient 0, each pair summed before its product, starting from `+0.0`. -/
def Obligations.EvaluationFollowsTheOrder : Prop :=
  ∀ s : State, s.widx.toNat ≤ 126 →
    s.evaluate =
      (List.range 64).foldl
        (fun acc i =>
          fadd32 acc
            (fmul32 (s.coef.toList.getD i 0)
              (fadd32 (s.dl.toList.getD ((s.widx.toNat + 126 - i) % 127) 0)
                (s.dl.toList.getD ((s.widx.toNat + i) % 127) 0))))
        0x00000000

/-- R219, R220, R221: in exact arithmetic the 64 symmetric terms are the 127 taps of the expanded kernel over the samples
by age; the kernel is symmetric; its sum is twice the sum of the coefficients. -/
def Obligations.SymmetricTermsAreTheFullKernel : Prop :=
  ∀ c : Nat → Int,
    (∀ (x : Fin 127 → Int) (w : Nat),
      exactEvaluate c x w = ((List.range 127).map fun a => fullKernel c a * x (dlIndex (newest w a))).sum) ∧
    (∀ a, a ≤ 126 → fullKernel c a = fullKernel c (126 - a)) ∧
    ((List.range 127).map (fullKernel c)).sum = 2 * ((List.range 64).map c).sum

/-- R221, R223: before rounding, the reference kernel's taps sum to 1, they are symmetric, and twice the sum of the
coefficients is 1, wherever the formula's divisor is not 0. -/
def Obligations.ReferenceKernelIsNormalised : Prop :=
  ∀ rate : Nat, kernelSum rate ≠ 0 →
    (∑ m ∈ Finset.Icc (-63 : Int) 63, kernelTap rate m) = 1 ∧
    (∀ m : Int, kernelTap rate (-m) = kernelTap rate m) ∧
    2 * (∑ i : Fin 64, referenceCoef rate i) = 1

/-! ## The number format -/

/-- R212, R213: where the exact sum of finite words is at least `(2^25 - 1) * 2^252` units of 2^-149 in magnitude, which
is the largest finite number and half a unit of its last place, the result is the infinity of the exact sum's sign; where
it is less, the result is finite, it is the binary32 number nearest to the exact sum, and of two equally near ones the one
whose last fraction bit is 0. A sum that is exactly 0 is `-0.0` where both operands are, and otherwise `+0.0`. -/
def Obligations.AdditionRoundsToNearestEven : Prop :=
  ∀ a b : Word, isFinite a = true → isFinite b = true →
    ((2 ^ 25 - 1) * 2 ^ 252 ≤ |value a + value b| →
      fadd32 a b = if value a + value b < 0 then 0xFF800000 else 0x7F800000) ∧
    (|value a + value b| < (2 ^ 25 - 1) * 2 ^ 252 →
      isFinite (fadd32 a b) = true ∧
      ∀ c : Word, isFinite c = true →
        |value a + value b - value (fadd32 a b)| ≤ |value a + value b - value c| ∧
        (|value a + value b - value (fadd32 a b)| = |value a + value b - value c| → value c ≠ value (fadd32 a b) →
          (fadd32 a b).getLsbD 0 = false)) ∧
    (value a + value b = 0 →
      fadd32 a b = if a = 0x80000000 ∧ b = 0x80000000 then 0x80000000 else 0x00000000)

/-- R212, R214: the same of the product; values count units of 2^-149, so a product counts units of 2^-298. -/
def Obligations.MultiplicationRoundsToNearestEven : Prop :=
  ∀ a b : Word, isFinite a = true → isFinite b = true →
    ((2 ^ 25 - 1) * 2 ^ 252 * 2 ^ 149 ≤ |value a * value b| →
      fmul32 a b = if value a * value b < 0 then 0xFF800000 else 0x7F800000) ∧
    (|value a * value b| < (2 ^ 25 - 1) * 2 ^ 252 * 2 ^ 149 →
      isFinite (fmul32 a b) = true ∧
      ∀ c : Word, isFinite c = true →
        |value a * value b - value (fmul32 a b) * 2 ^ 149| ≤ |value a * value b - value c * 2 ^ 149| ∧
        (|value a * value b - value (fmul32 a b) * 2 ^ 149| = |value a * value b - value c * 2 ^ 149| →
          value c ≠ value (fmul32 a b) → (fmul32 a b).getLsbD 0 = false)) ∧
    (value a * value b = 0 →
      fmul32 a b = if signBit a = signBit b then 0x00000000 else 0x80000000)

/-- R212, R213, R214: the special cases of the two operations. Of the operands, one is a NaN, or one is an infinity, or
both are finite; where both are finite the result is no NaN. -/
def Obligations.ArithmeticSpecialCases : Prop :=
  (∀ a b : Word, isNaN a = true ∨ isNaN b = true → fadd32 a b = 0x7FC00000 ∧ fmul32 a b = 0x7FC00000) ∧
  (∀ a b : Word, isFinite a = true → isFinite b = true →
    isNaN (fadd32 a b) = false ∧ isNaN (fmul32 a b) = false) ∧
  (∀ x : Word, isFinite x = true → fadd32 x (x ^^^ 0x80000000) = 0x00000000) ∧
  fadd32 0x00000000 0x80000000 = 0x00000000 ∧ fadd32 0x80000000 0x00000000 = 0x00000000 ∧
  fadd32 0x80000000 0x80000000 = 0x80000000 ∧ fadd32 0x00000000 0x00000000 = 0x00000000 ∧
  fadd32 0x7F800000 0xFF800000 = 0x7FC00000 ∧ fadd32 0xFF800000 0x7F800000 = 0x7FC00000 ∧
  (∀ x y : Word, isInf x = true → isInf y = true →
    fadd32 x y = if signBit x = signBit y then x else 0x7FC00000) ∧
  (∀ x y : Word, isInf x = true → isFinite y = true → fadd32 x y = x ∧ fadd32 y x = x) ∧
  (∀ x y : Word, isInf x = true → value y = 0 → isFinite y = true →
    fmul32 x y = 0x7FC00000 ∧ fmul32 y x = 0x7FC00000) ∧
  (∀ x y : Word, isInf x = true → isNaN y = false → value y ≠ 0 →
    fmul32 x y = (if signBit x = signBit y then 0x7F800000 else 0xFF800000) ∧ fmul32 y x = fmul32 x y) ∧
  (∀ x y : Word, isNaN x = false → isNaN y = false → isNaN (fmul32 x y) = false →
    signBit (fmul32 x y) = (signBit x != signBit y))

/-- 92_eei_decisions.md D44: binary32 addition is commutative, so the channel order never changes the downmixed
sample. -/
def Obligations.AdditionIsCommutative : Prop :=
  (∀ a b : Word, fadd32 a b = fadd32 b a) ∧
  (∀ (s t : State) (l r : Word), s.stereo = true → t.stereo = true →
    s.chunk[s.chunkIdx.toNat]? = some ⟨l, r⟩ → t.chunk[t.chunkIdx.toNat]? = some ⟨r, l⟩ →
    s.currentSample = t.currentSample)

/-! ## TUNE -/

/-- R155, R157: a candidate is valid iff its VCO frequency is below 1.4 GHz and the floor of the multiplier is the same
at both extremes of the swing. -/
def Obligations.ValidMeansVcoLimitAndSwing : Prop :=
  ∀ (t : TuneIn) (k : Nat), 0 < t.fref →
    (t.valid k = true ↔
      k * t.fc < 1400000000 ∧
      ⌊(((t.fc : ℚ) - 10 - t.dev) * k) / t.fref⌋ = ⌊(((t.fc : ℚ) + 10 + t.dev) * k) / t.fref⌋)

/-- R156, R158, R159: the figure of merit is the number of points: each open band around the VCO frequency, and the
fraction of the multiplier within [0.2, 0.8]. -/
def Obligations.FigureCountsThePoints : Prop :=
  ∀ (t : TuneIn) (k : Nat), 0 < t.fref →
    t.figure k =
      (if 900000000 < k * t.fc ∧ k * t.fc < 1100000000 then 1 else 0) +
      (if 800000000 < k * t.fc ∧ k * t.fc < 1200000000 then 1 else 0) +
      (if (1 / 5 : ℚ) ≤ Int.fract ((k * t.fc : ℚ) / t.fref) ∧ Int.fract ((k * t.fc : ℚ) / t.fref) ≤ 4 / 5 then 1 else 0) ∧
    t.figure k ≤ 3

/-- R151, R154, R160, R162: a search with a valid candidate chooses the first of those with the highest figure of merit,
and writes it with its multiplier; nothing else changes. -/
def Obligations.TuneChoosesTheFirstBest : Prop :=
  ∀ s : State, s.busy = true → s.fref ≠ 0 → s.kovr = 0 → (∃ k, 2 ≤ k ∧ k < 50 ∧ s.tuneIn.valid k = true) →
    ∃ k, 2 ≤ k ∧ k < 50 ∧ s.tuneIn.valid k = true ∧
      (∀ j, 2 ≤ j → j < 50 → s.tuneIn.valid j = true → s.tuneIn.figure j ≤ s.tuneIn.figure k) ∧
      (∀ j, 2 ≤ j → j < k → s.tuneIn.valid j = true → s.tuneIn.figure j < s.tuneIn.figure k) ∧
      exec .tune s =
        .next { s with
          k := BitVec.ofNat 8 k
          fom := BitVec.ofNat 2 (s.tuneIn.figure k)
          mint := BitVec.ofNat 32 (k * s.fc.toNat / s.fref.toNat)
          mfrac := BitVec.ofNat 20 ((k * s.fc.toNat) % s.fref.toNat * 2 ^ 20 / s.fref.toNat)
          tstat := 0b001
          busy := false
          curOp := 0
          prodRem := 0 }

/-- R161, R267: no valid candidate and no override: the failure results and `E_NODIV`, `MODE` unchanged. -/
def Obligations.TuneFailsWithoutADivider : Prop :=
  ∀ s : State, s.busy = true → s.fref ≠ 0 → s.kovr = 0 → (∀ k, 2 ≤ k → k < 50 → s.tuneIn.valid k = false) →
    exec .tune s =
      .next { s with
        k := 0, fom := 0, mint := 0, mfrac := 0, tstat := 0b011
        err := s.err ||| 0x020
        busy := false, curOp := 0, prodRem := 0 }

/-- R152: `FREF = 0` fails with `E_CFG`, whatever the override. -/
def Obligations.TuneNeedsAReference : Prop :=
  ∀ s : State, s.busy = true → s.fref = 0 →
    exec .tune s =
      .next { s with
        k := 0, fom := 0, mint := 0, mfrac := 0, tstat := 0b011
        err := s.err ||| 0x010
        busy := false, curOp := 0, prodRem := 0 }

/-- R153, R162: an override is used unchecked. -/
def Obligations.TuneTrustsTheOverride : Prop :=
  ∀ s : State, s.busy = true → s.fref ≠ 0 → s.kovr ≠ 0 →
    exec .tune s =
      .next { s with
        k := s.kovr
        fom := 0
        mint := BitVec.ofNat 32 (s.kovr.toNat * s.fc.toNat / s.fref.toNat % 2 ^ 32)
        mfrac := BitVec.ofNat 20 ((s.kovr.toNat * s.fc.toNat) % s.fref.toNat * 2 ^ 20 / s.fref.toNat)
        tstat := 0b101
        busy := false
        curOp := 0
        prodRem := 0 }

/-- R150: what `TUNE` writes is a function of its four inputs alone, and it touches no other state. -/
def Obligations.TuneIsAFunctionOfItsInputs : Prop :=
  ∀ s t : State, s.busy = true → t.busy = true → s.fc = t.fc → s.dev = t.dev → s.fref = t.fref → s.kovr = t.kovr →
    ∃ u v : State, exec .tune s = .next u ∧ exec .tune t = .next v ∧
      u.k = v.k ∧ u.fom = v.fom ∧ u.mint = v.mint ∧ u.mfrac = v.mfrac ∧ u.tstat = v.tstat ∧
      (∃ e : BitVec 9, (e = 0 ∨ e = 0x010 ∨ e = 0x020) ∧ u.err = s.err ||| e ∧ v.err = t.err ||| e) ∧
      u =
        { s with
          k := u.k, fom := u.fom, mint := u.mint, mfrac := u.mfrac, tstat := u.tstat, err := u.err
          busy := false, curOp := 0, prodRem := 0 }

/-- R163: the consequences of the search rules. Once a candidate fails the VCO limit every later one does; a carrier
below `10 + d` has no valid candidate; and a searched result reproduces the carrier to within the truncation. -/
def Obligations.TuneSearchConsequences : Prop :=
  (∀ (t : TuneIn) (j k : Nat), 0 < t.fc → j ≤ k → t.underVco j = false → t.underVco k = false) ∧
  (∀ (t : TuneIn) (k : Nat), 0 < t.fref → 2 ≤ k → t.fc < 10 + t.dev → t.valid k = false) ∧
  (∀ s u : State, s.busy = true → exec .tune s = .next u → u.tstat = 0b001 →
    u.mint.toNat = u.k.toNat * s.fc.toNat / s.fref.toNat ∧
    (u.mint.toNat * 2 ^ 20 + u.mfrac.toNat) * s.fref.toNat ≤ s.fc.toNat * u.k.toNat * 2 ^ 20 ∧
    s.fc.toNat * u.k.toNat * 2 ^ 20 < (u.mint.toNat * 2 ^ 20 + u.mfrac.toNat + 1) * s.fref.toNat)

/-- R309: the `TUNE` results change only in the step of a `TUNE` and in a reset. -/
def Obligations.TuneResultsAreHeld : Prop :=
  ∀ s t : State, step s = .next t → s.runsNext 0x04 = false → s.resetsNext = false →
    t.k = s.k ∧ t.fom = s.fom ∧ t.mint = s.mint ∧ t.mfrac = s.mfrac ∧ t.tstat = s.tstat

/-! ## The host window -/

/-- R87: the host write, for every aligned offset of the window, in the rule's order. -/
def Obligations.HostWriteFollowsTheMap : Prop :=
  ∀ (s : State) (off : Nat) (v : Word), off % 4 = 0 → off < 0x400 →
    s.turn (.write off 4 v) =
      if off = 0x008 ∧ v.getLsbD 31 = true then .next s.resetBlock
      else if off = 0x010 then .next { s with err := s.err &&& ~~~(v.extractLsb' 0 9) }
      else if s.busy = true then .next { s with err := s.err ||| 0x002 }
      else if off = 0x014 then s.issue v
      else if off = 0x008 ∨ off = 0x018 ∨ (0x100 ≤ off ∧ off ≤ 0x1FC) then
        if s.mode = .running then .next { s with err := s.err ||| 0x008 }
        else if off = 0x008 then .next { s with stereo := v.getLsbD 0 }
        else if off = 0x018 then .next { s with rate := v.extractLsb' 0 24 }
        else .next { s with coef := s.coef.setIfInBounds ((off - 0x100) / 4) v }
      else if off = 0x040 then .next { s with fc := v }
      else if off = 0x044 then .next { s with dev := v }
      else if off = 0x048 then .next { s with fref := v }
      else if off = 0x04C then .next { s with kovr := v.extractLsb' 0 8 }
      else .next s

/-- R88 (with R37 for `STATUS`): what a host read returns, for every aligned offset of the window, and that only a read
of `OUT_DATA` changes the block. The words are given by their numbers. -/
def Obligations.HostReadFollowsTheMap : Prop :=
  ∀ (s : State) (off : Nat), s.ParamsOk → off % 4 = 0 → off < 0x400 →
    ∃ t, s.turn (.read off 4) = .next t ∧
      (off ≠ 0x01C → t = { s with rdata := t.rdata }) ∧
      (off = 0x01C →
        (s.fifo = [] → t = { s with rdata := 0, err := s.err ||| 0x100 }) ∧
        (∀ w ws, s.fifo = w :: ws → t = { s with rdata := w, fifo := ws })) ∧
      (off ≠ 0x01C → s.fifo.length ≤ s.par.outDepth → t.rdata.toNat =
        if off = 0x000 then 0x55465031
        else if off = 0x004 then s.par.chunkFrames * 2 ^ 16 + s.par.outDepth
        else if off = 0x008 then s.stereo.toNat
        else if off = 0x00C then
          s.prodRem.toNat * 2 ^ 16 + s.curOp.toNat * 2 ^ 8 + s.stall.toNat * 2 ^ 5 + s.outFull.toNat * 2 ^ 4 +
            s.outEmpty.toNat * 2 ^ 3 + s.mode.code.toNat * 2 + s.busy.toNat
        else if off = 0x010 then s.err.toNat
        else if off = 0x018 then s.rate.toNat
        else if off = 0x020 then s.fifo.length
        else if off = 0x024 then s.phase.toNat
        else if off = 0x028 then s.widx.toNat
        else if off = 0x02C then s.chunkLen.toNat * 2 ^ 16 + s.chunkIdx.toNat
        else if off = 0x030 then s.advcnt.toNat
        else if off = 0x034 then s.rwcnt.toNat
        else if off = 0x038 then s.smpcnt.toNat
        else if off = 0x040 then s.fc.toNat
        else if off = 0x044 then s.dev.toNat
        else if off = 0x048 then s.fref.toNat
        else if off = 0x04C then s.kovr.toNat
        else if off = 0x050 then s.k.toNat
        else if off = 0x054 then s.fom.toNat
        else if off = 0x058 then s.mint.toNat
        else if off = 0x05C then s.mfrac.toNat
        else if off = 0x060 then s.tstat.toNat
        else if 0x100 ≤ off ∧ off ≤ 0x1FC then (s.coef.toList.getD ((off - 0x100) / 4) 0).toNat
        else if 0x200 ≤ off ∧ off ≤ 0x3F8 then (s.dl.toList.getD ((off - 0x200) / 4) 0).toNat
        else 0)

/-- R81, R82: an access that is not one aligned word, or lies outside the window, is refused. The rules name no refusal:
which name each gets, and that a misaligned access outside the window gets the first, is the model's choice (DESIGN
CHOICE, assumption log 16). -/
def Obligations.OtherAccessesAreRefused : Prop :=
  ∀ (s : State) (off width : Nat) (v : Word),
    (width ≠ 4 ∨ off % 4 ≠ 0 →
      s.turn (.write off width v) = .refused .notOneAlignedWord ∧
      s.turn (.read off width) = .refused .notOneAlignedWord) ∧
    (width = 4 → off % 4 = 0 → 0x400 ≤ off →
      s.turn (.write off width v) = .refused .outsideWindow ∧
      s.turn (.read off width) = .refused .outsideWindow)

/-- R84: reserved offsets read 0 and ignore writes, or raise `E_BUSYWR` while busy; reserved bits of the writable
registers are dropped and read 0. -/
def Obligations.ReservedPlacesReadZero : Prop :=
  (∀ (s : State) (off : Nat) (v : Word), off % 4 = 0 →
    off = 0x03C ∨ (0x064 ≤ off ∧ off ≤ 0x0FC) ∨ off = 0x3FC →
    s.turn (.read off 4) = .next { s with rdata := 0 } ∧
    (s.busy = false → s.turn (.write off 4 v) = .next s) ∧
    (s.busy = true → s.turn (.write off 4 v) = .next { s with err := s.err ||| 0x002 })) ∧
  (∀ (s : State) (v : Word), s.busy = false → s.mode ≠ .running → v.getLsbD 31 = false →
    ∃ t, s.turn (.write 0x008 4 v) = .next t ∧ (t.hostRead 0x008).rdata = v &&& 0x00000001) ∧
  (∀ (s : State) (v : Word), s.busy = false → s.mode ≠ .running →
    ∃ t, s.turn (.write 0x018 4 v) = .next t ∧ (t.hostRead 0x018).rdata = v &&& 0x00FFFFFF) ∧
  (∀ (s : State) (v : Word), s.busy = false →
    ∃ t, s.turn (.write 0x04C 4 v) = .next t ∧ (t.hostRead 0x04C).rdata = v &&& 0x000000FF)

/-- R263, R265: a write while `BUSY = 1`, but for `ERR` and the soft reset, is dropped with `E_BUSYWR`; a write of
`CTRL`, `RATE` or a coefficient while `RUNNING` and not busy is dropped with `E_LOCKED`. Nothing else changes. -/
def Obligations.RefusedWritesSetOnlyTheirBit : Prop :=
  (∀ (s : State) (off : Nat) (v : Word), off % 4 = 0 → off < 0x400 → s.busy = true → off ≠ 0x010 →
    ¬ (off = 0x008 ∧ v.getLsbD 31 = true) →
    s.turn (.write off 4 v) = .next { s with err := s.err ||| 0x002 }) ∧
  (∀ (s : State) (off : Nat) (v : Word), off % 4 = 0 → s.busy = false → s.mode = .running →
    (off = 0x008 ∧ v.getLsbD 31 = false) ∨ off = 0x018 ∨ (0x100 ≤ off ∧ off ≤ 0x1FC) →
    s.turn (.write off 4 v) = .next { s with err := s.err ||| 0x008 })

/-! ## Rules of the whole machine -/

/-- R307, R308: while a command executes none of its inputs can change; while `RUNNING`, only a reset changes `RATE`,
`CTRL.STEREO` or `COEF`. -/
def Obligations.InputsAreFixedWhileBusyOrRunning : Prop :=
  (∀ s t : State, step s = .next t → s.busy = true → s.resetsNext = false →
    t.rate = s.rate ∧ t.stereo = s.stereo ∧ t.coef = s.coef ∧ t.fc = s.fc ∧ t.dev = s.dev ∧ t.fref = s.fref ∧
      t.kovr = s.kovr) ∧
  (∀ s t : State, step s = .next t → s.mode = .running → s.resetsNext = false →
    t.rate = s.rate ∧ t.stereo = s.stereo ∧ t.coef = s.coef)

/-- R62: the transitions of `MODE`, over every step of the machine. -/
def Obligations.ModeChangesOnlyAsListed : Prop :=
  ∀ s t : State, step s = .next t → t.mode ≠ s.mode →
    (s.resetsNext = true ∧ t.mode = .idle) ∨
    (s.runsNext 0x03 = true ∧ t.mode = .idle) ∨
    (s.runsNext 0x01 = true ∧ s.rate ≠ 0 ∧ t.mode = .running) ∨
    (s.runsNext 0x02 = true ∧ s.prodRem ≠ 0 ∧ t.mode = .fault ∧
      (t.err = s.err ||| 0x040 ∨ t.err = s.err ||| 0x080))

/-- R61, R98, R246: over every step of the machine the FIFO stays as it is, gains one word at its tail in a `PROD` step
that found room, loses the word that a host read of `OUT_DATA` returns, or is emptied by `INIT` or a reset. -/
def Obligations.FifoKeepsOrderAndDropsNothing : Prop :=
  ∀ s t : State, step s = .next t →
    t.fifo = s.fifo ∨
    (s.runsNext 0x02 = true ∧ s.fifo.length < s.par.outDepth ∧ ∃ y, t.fifo = s.fifo ++ [y]) ∨
    ((∃ ts, s.agenda = .read 0x01C 4 :: ts) ∧ s.fifo = t.rdata :: t.fifo) ∨
    (t.fifo = [] ∧ (s.runsNext 0x01 = true ∨ s.resetsNext = true))

/-- R271, R272: over every step that is neither a reset nor a write of `ERR`, no error bit is lost and at most one is
raised; a write of `ERR` clears exactly the bits written 1. -/
def Obligations.ErrorsAreStickyAndComeOneAtATime : Prop :=
  (∀ s t : State, step s = .next t → s.resetsNext = false →
    (∀ v ts, s.agenda ≠ .write 0x010 4 v :: ts) → t.err = s.err ∨ ∃ e : Cause, t.err = s.err ||| e.bit) ∧
  (∀ (s : State) (v : Word) (ts : List Turn), s.agenda = .write 0x010 4 v :: ts →
    step s = .next { s with agenda := ts, err := s.err &&& ~~~(v.extractLsb' 0 9) })

/-- R150, R240, R304: only the step of a `PROD` asks the source for anything; apart from it only the host's attaching of
another source changes the source, not even a reset. -/
def Obligations.OnlyProdAsksTheSource : Prop :=
  ∀ s t : State, step s = .next t → s.runsNext 0x02 = false →
    t.srcReqs = s.srcReqs ∧ (t.src = s.src ∨ ∃ ts, s.agenda = .attach t.src :: ts)

/-! ## Reset -/

/-- R301, R65: `Reset()`; R304: what it does not reach; the machine starts in that state. -/
def Obligations.ResetSetsEveryElement : Prop :=
  (∀ s : State,
    s.resetBlock =
      { s with
        busy := false, curOp := 0, prodRem := 0, mode := .idle
        err := 0
        stereo := false, rate := 0
        fc := 0, dev := 0, fref := 0, kovr := 0
        k := 0, fom := 0, mint := 0, mfrac := 0, tstat := 0
        phase := 0, widx := 0, chunkIdx := 0, chunkLen := 0
        advcnt := 0, rwcnt := 0, smpcnt := 0
        coef := Vector.replicate 64 0x00000000
        dl := Vector.replicate 127 0x00000000
        chunk := []
        fifo := [] }) ∧
  State.reset.resetBlock = State.reset

/-- R300, R302, R306: both resets do `Reset()` in every state, also while busy, and two in a row leave the state of
one. -/
def Obligations.ResetIsHonouredInEveryState : Prop :=
  ∀ (s : State) (ts : List Turn) (v : Word),
    (s.agenda = .powerOn :: ts → step s = .next { s.resetBlock with agenda := ts }) ∧
    (v.getLsbD 31 = true → s.agenda = .write 0x008 4 v :: ts → step s = .next { s.resetBlock with agenda := ts }) ∧
    s.resetBlock.resetBlock = s.resetBlock

/-- R303: after a reset `STATUS` reads `0x00000008` and every other register but `ID` and `PARAM` 0; `PROD` is refused with `E_STATE`; `INIT` and `TUNE` fail with
`E_CFG`. -/
def Obligations.NothingRunsUnconfiguredAfterReset : Prop :=
  ∀ s u : State, s.ParamsOk → u = s.resetBlock →
    u.statusWord = 0x00000008 ∧ u.readReg .id = 0x55465031 ∧
    (∀ r : Reg, r ≠ .status → r ≠ .id → r ≠ .param → u.readReg r = 0) ∧
    (∀ n, n ≤ 65535 → u.hostWrite 0x014 (encode (.prod n)) = .next { u with err := 0x004 }) ∧
    (∃ t, u.hostWrite 0x014 (encode .init) = .next t ∧ t.seqTurn = .next { u with err := 0x010 }) ∧
    (∃ t, u.hostWrite 0x014 (encode .tune) = .next t ∧ t.seqTurn = .next { u with err := 0x010, tstat := 0b011 })

/-- R64: the invariants hold in the state after reset. -/
def Obligations.InvariantsHoldAtReset : Prop := State.reset.Inv

/-- R64: every step of every agent keeps the invariants. -/
def Obligations.InvariantsAreKeptByEveryStep : Prop :=
  ∀ s t : State, s.Inv → step s = .next t → t.Inv

/-- R133, R137, R316: from a state that meets the invariants, with a turn the spec lets its agent take and a source that
lists no answer longer than it was asked for, every step has a next state; no state that meets the invariants faults.
This includes a held `PROD` and a `PROD` whose source never answers: the spec gives them no step that ends, and that the
model answers the same state as next is its own reading (DEDUCED, assumption log 10). -/
def Obligations.LawfulStepsProceed : Prop :=
  (∀ s : State, s.Inv → (∀ t ts, s.agenda = t :: ts → t.lawful = true) → s.src.dutiful s.par.chunkFrames = true →
    Proceeds (step s)) ∧
  (∀ (s : State) (f : Fault), s.Inv → step s ≠ .fault f)

/-! ## Host programs -/

/-- R118, R120: `WAIT` stays while a command executes and is used up in the first state with `BUSY = 0`; behind a held
`PROD` it never ends. -/
def Obligations.WaitEndsWhenNotBusy : Prop :=
  (∀ (s : State) (ts : List Turn), s.agenda = .wait :: ts → s.busy = false → step s = .next { s with agenda := ts }) ∧
  (∀ (s t : State) (ts : List Turn), s.agenda = .wait :: ts → s.busy = true → step s = .next t →
    t.agenda = s.agenda) ∧
  (∀ (s : State) (ts : List Turn), s.agenda = .wait :: ts → s.stall = true → step s = .next s)

/-- R119: `SETCOEF`, `DRAIN` and `PRODN` expand as written; the counts of a `PRODN` fit a command and add up to its
operand. -/
def Obligations.PseudoInstructionsExpand : Prop :=
  (∀ (i : Nat) (v : Word), i ≤ 63 → (Line.setCoef i v).turns = [.write (0x100 + 4 * i) 4 v]) ∧
  (∀ k, (Line.drain k).turns = List.replicate k (.read 0x01C 4)) ∧
  (∀ (n : Nat) (ms : List Nat), 65535 < n →
    ms = List.replicate (n / 65535) 65535 ++ (if n % 65535 = 0 then [] else [n % 65535]) →
      (Line.prodN n).turns =
          (ms.map fun m => [Turn.write 0x014 4 (0x02000000 ||| BitVec.ofNat 32 m), .wait]).flatten ∧
        ms.sum = n ∧ (∀ m ∈ ms, 1 ≤ m ∧ m ≤ 65535))
end

