-- ==== Sys2Proof/Laws/State.lean ====
section
/-! SUPPORT. What each update of the state does to each field, so that no later proof unfolds an update. -/

namespace Sys2Proof.Machine

/-! ## `State.raise` -/

section
variable (s : State) (e : Cause)

@[simp] theorem State.raise_par : (s.raise e).par = s.par := rfl
@[simp] theorem State.raise_busy : (s.raise e).busy = s.busy := rfl
@[simp] theorem State.raise_curOp : (s.raise e).curOp = s.curOp := rfl
@[simp] theorem State.raise_prodRem : (s.raise e).prodRem = s.prodRem := rfl
@[simp] theorem State.raise_mode : (s.raise e).mode = s.mode := rfl
@[simp] theorem State.raise_err : (s.raise e).err = s.err ||| e.bit := rfl
@[simp] theorem State.raise_stereo : (s.raise e).stereo = s.stereo := rfl
@[simp] theorem State.raise_rate : (s.raise e).rate = s.rate := rfl
@[simp] theorem State.raise_phase : (s.raise e).phase = s.phase := rfl
@[simp] theorem State.raise_chunkIdx : (s.raise e).chunkIdx = s.chunkIdx := rfl
@[simp] theorem State.raise_chunkLen : (s.raise e).chunkLen = s.chunkLen := rfl
@[simp] theorem State.raise_chunk : (s.raise e).chunk = s.chunk := rfl
@[simp] theorem State.raise_coef : (s.raise e).coef = s.coef := rfl
@[simp] theorem State.raise_dl : (s.raise e).dl = s.dl := rfl
@[simp] theorem State.raise_widx : (s.raise e).widx = s.widx := rfl
@[simp] theorem State.raise_fifo : (s.raise e).fifo = s.fifo := rfl
@[simp] theorem State.raise_advcnt : (s.raise e).advcnt = s.advcnt := rfl
@[simp] theorem State.raise_rwcnt : (s.raise e).rwcnt = s.rwcnt := rfl
@[simp] theorem State.raise_smpcnt : (s.raise e).smpcnt = s.smpcnt := rfl
@[simp] theorem State.raise_fc : (s.raise e).fc = s.fc := rfl
@[simp] theorem State.raise_dev : (s.raise e).dev = s.dev := rfl
@[simp] theorem State.raise_fref : (s.raise e).fref = s.fref := rfl
@[simp] theorem State.raise_kovr : (s.raise e).kovr = s.kovr := rfl
@[simp] theorem State.raise_k : (s.raise e).k = s.k := rfl
@[simp] theorem State.raise_fom : (s.raise e).fom = s.fom := rfl
@[simp] theorem State.raise_mint : (s.raise e).mint = s.mint := rfl
@[simp] theorem State.raise_mfrac : (s.raise e).mfrac = s.mfrac := rfl
@[simp] theorem State.raise_tstat : (s.raise e).tstat = s.tstat := rfl
@[simp] theorem State.raise_agenda : (s.raise e).agenda = s.agenda := rfl
@[simp] theorem State.raise_src : (s.raise e).src = s.src := rfl
@[simp] theorem State.raise_srcReqs : (s.raise e).srcReqs = s.srcReqs := rfl
@[simp] theorem State.raise_rdata : (s.raise e).rdata = s.rdata := rfl

end

/-! ## `State.clearErr` -/

section
variable (s : State) (mask : BitVec 9)

@[simp] theorem State.clearErr_par : (s.clearErr mask).par = s.par := rfl
@[simp] theorem State.clearErr_busy : (s.clearErr mask).busy = s.busy := rfl
@[simp] theorem State.clearErr_curOp : (s.clearErr mask).curOp = s.curOp := rfl
@[simp] theorem State.clearErr_prodRem : (s.clearErr mask).prodRem = s.prodRem := rfl
@[simp] theorem State.clearErr_mode : (s.clearErr mask).mode = s.mode := rfl
@[simp] theorem State.clearErr_err : (s.clearErr mask).err = s.err &&& ~~~mask := rfl
@[simp] theorem State.clearErr_stereo : (s.clearErr mask).stereo = s.stereo := rfl
@[simp] theorem State.clearErr_rate : (s.clearErr mask).rate = s.rate := rfl
@[simp] theorem State.clearErr_phase : (s.clearErr mask).phase = s.phase := rfl
@[simp] theorem State.clearErr_chunkIdx : (s.clearErr mask).chunkIdx = s.chunkIdx := rfl
@[simp] theorem State.clearErr_chunkLen : (s.clearErr mask).chunkLen = s.chunkLen := rfl
@[simp] theorem State.clearErr_chunk : (s.clearErr mask).chunk = s.chunk := rfl
@[simp] theorem State.clearErr_coef : (s.clearErr mask).coef = s.coef := rfl
@[simp] theorem State.clearErr_dl : (s.clearErr mask).dl = s.dl := rfl
@[simp] theorem State.clearErr_widx : (s.clearErr mask).widx = s.widx := rfl
@[simp] theorem State.clearErr_fifo : (s.clearErr mask).fifo = s.fifo := rfl
@[simp] theorem State.clearErr_advcnt : (s.clearErr mask).advcnt = s.advcnt := rfl
@[simp] theorem State.clearErr_rwcnt : (s.clearErr mask).rwcnt = s.rwcnt := rfl
@[simp] theorem State.clearErr_smpcnt : (s.clearErr mask).smpcnt = s.smpcnt := rfl
@[simp] theorem State.clearErr_fc : (s.clearErr mask).fc = s.fc := rfl
@[simp] theorem State.clearErr_dev : (s.clearErr mask).dev = s.dev := rfl
@[simp] theorem State.clearErr_fref : (s.clearErr mask).fref = s.fref := rfl
@[simp] theorem State.clearErr_kovr : (s.clearErr mask).kovr = s.kovr := rfl
@[simp] theorem State.clearErr_k : (s.clearErr mask).k = s.k := rfl
@[simp] theorem State.clearErr_fom : (s.clearErr mask).fom = s.fom := rfl
@[simp] theorem State.clearErr_mint : (s.clearErr mask).mint = s.mint := rfl
@[simp] theorem State.clearErr_mfrac : (s.clearErr mask).mfrac = s.mfrac := rfl
@[simp] theorem State.clearErr_tstat : (s.clearErr mask).tstat = s.tstat := rfl
@[simp] theorem State.clearErr_agenda : (s.clearErr mask).agenda = s.agenda := rfl
@[simp] theorem State.clearErr_src : (s.clearErr mask).src = s.src := rfl
@[simp] theorem State.clearErr_srcReqs : (s.clearErr mask).srcReqs = s.srcReqs := rfl
@[simp] theorem State.clearErr_rdata : (s.clearErr mask).rdata = s.rdata := rfl

end

/-! ## `State.accept` -/

section
variable (s : State) (op : BitVec 8) (n : BitVec 16)

@[simp] theorem State.accept_par : (s.accept op n).par = s.par := rfl
@[simp] theorem State.accept_busy : (s.accept op n).busy = true := rfl
@[simp] theorem State.accept_curOp : (s.accept op n).curOp = op := rfl
@[simp] theorem State.accept_prodRem : (s.accept op n).prodRem = n := rfl
@[simp] theorem State.accept_mode : (s.accept op n).mode = s.mode := rfl
@[simp] theorem State.accept_err : (s.accept op n).err = s.err := rfl
@[simp] theorem State.accept_stereo : (s.accept op n).stereo = s.stereo := rfl
@[simp] theorem State.accept_rate : (s.accept op n).rate = s.rate := rfl
@[simp] theorem State.accept_phase : (s.accept op n).phase = s.phase := rfl
@[simp] theorem State.accept_chunkIdx : (s.accept op n).chunkIdx = s.chunkIdx := rfl
@[simp] theorem State.accept_chunkLen : (s.accept op n).chunkLen = s.chunkLen := rfl
@[simp] theorem State.accept_chunk : (s.accept op n).chunk = s.chunk := rfl
@[simp] theorem State.accept_coef : (s.accept op n).coef = s.coef := rfl
@[simp] theorem State.accept_dl : (s.accept op n).dl = s.dl := rfl
@[simp] theorem State.accept_widx : (s.accept op n).widx = s.widx := rfl
@[simp] theorem State.accept_fifo : (s.accept op n).fifo = s.fifo := rfl
@[simp] theorem State.accept_advcnt : (s.accept op n).advcnt = s.advcnt := rfl
@[simp] theorem State.accept_rwcnt : (s.accept op n).rwcnt = s.rwcnt := rfl
@[simp] theorem State.accept_smpcnt : (s.accept op n).smpcnt = s.smpcnt := rfl
@[simp] theorem State.accept_fc : (s.accept op n).fc = s.fc := rfl
@[simp] theorem State.accept_dev : (s.accept op n).dev = s.dev := rfl
@[simp] theorem State.accept_fref : (s.accept op n).fref = s.fref := rfl
@[simp] theorem State.accept_kovr : (s.accept op n).kovr = s.kovr := rfl
@[simp] theorem State.accept_k : (s.accept op n).k = s.k := rfl
@[simp] theorem State.accept_fom : (s.accept op n).fom = s.fom := rfl
@[simp] theorem State.accept_mint : (s.accept op n).mint = s.mint := rfl
@[simp] theorem State.accept_mfrac : (s.accept op n).mfrac = s.mfrac := rfl
@[simp] theorem State.accept_tstat : (s.accept op n).tstat = s.tstat := rfl
@[simp] theorem State.accept_agenda : (s.accept op n).agenda = s.agenda := rfl
@[simp] theorem State.accept_src : (s.accept op n).src = s.src := rfl
@[simp] theorem State.accept_srcReqs : (s.accept op n).srcReqs = s.srcReqs := rfl
@[simp] theorem State.accept_rdata : (s.accept op n).rdata = s.rdata := rfl

end

/-! ## `State.complete` -/

section
variable (s : State) 

@[simp] theorem State.complete_par : (s.complete).par = s.par := rfl
@[simp] theorem State.complete_busy : (s.complete).busy = false := rfl
@[simp] theorem State.complete_curOp : (s.complete).curOp = 0 := rfl
@[simp] theorem State.complete_prodRem : (s.complete).prodRem = 0 := rfl
@[simp] theorem State.complete_mode : (s.complete).mode = s.mode := rfl
@[simp] theorem State.complete_err : (s.complete).err = s.err := rfl
@[simp] theorem State.complete_stereo : (s.complete).stereo = s.stereo := rfl
@[simp] theorem State.complete_rate : (s.complete).rate = s.rate := rfl
@[simp] theorem State.complete_phase : (s.complete).phase = s.phase := rfl
@[simp] theorem State.complete_chunkIdx : (s.complete).chunkIdx = s.chunkIdx := rfl
@[simp] theorem State.complete_chunkLen : (s.complete).chunkLen = s.chunkLen := rfl
@[simp] theorem State.complete_chunk : (s.complete).chunk = s.chunk := rfl
@[simp] theorem State.complete_coef : (s.complete).coef = s.coef := rfl
@[simp] theorem State.complete_dl : (s.complete).dl = s.dl := rfl
@[simp] theorem State.complete_widx : (s.complete).widx = s.widx := rfl
@[simp] theorem State.complete_fifo : (s.complete).fifo = s.fifo := rfl
@[simp] theorem State.complete_advcnt : (s.complete).advcnt = s.advcnt := rfl
@[simp] theorem State.complete_rwcnt : (s.complete).rwcnt = s.rwcnt := rfl
@[simp] theorem State.complete_smpcnt : (s.complete).smpcnt = s.smpcnt := rfl
@[simp] theorem State.complete_fc : (s.complete).fc = s.fc := rfl
@[simp] theorem State.complete_dev : (s.complete).dev = s.dev := rfl
@[simp] theorem State.complete_fref : (s.complete).fref = s.fref := rfl
@[simp] theorem State.complete_kovr : (s.complete).kovr = s.kovr := rfl
@[simp] theorem State.complete_k : (s.complete).k = s.k := rfl
@[simp] theorem State.complete_fom : (s.complete).fom = s.fom := rfl
@[simp] theorem State.complete_mint : (s.complete).mint = s.mint := rfl
@[simp] theorem State.complete_mfrac : (s.complete).mfrac = s.mfrac := rfl
@[simp] theorem State.complete_tstat : (s.complete).tstat = s.tstat := rfl
@[simp] theorem State.complete_agenda : (s.complete).agenda = s.agenda := rfl
@[simp] theorem State.complete_src : (s.complete).src = s.src := rfl
@[simp] theorem State.complete_srcReqs : (s.complete).srcReqs = s.srcReqs := rfl
@[simp] theorem State.complete_rdata : (s.complete).rdata = s.rdata := rfl

end

/-! ## `State.setMode` -/

section
variable (s : State) (m : Mode)

@[simp] theorem State.setMode_par : (s.setMode m).par = s.par := rfl
@[simp] theorem State.setMode_busy : (s.setMode m).busy = s.busy := rfl
@[simp] theorem State.setMode_curOp : (s.setMode m).curOp = s.curOp := rfl
@[simp] theorem State.setMode_prodRem : (s.setMode m).prodRem = s.prodRem := rfl
@[simp] theorem State.setMode_mode : (s.setMode m).mode = m := rfl
@[simp] theorem State.setMode_err : (s.setMode m).err = s.err := rfl
@[simp] theorem State.setMode_stereo : (s.setMode m).stereo = s.stereo := rfl
@[simp] theorem State.setMode_rate : (s.setMode m).rate = s.rate := rfl
@[simp] theorem State.setMode_phase : (s.setMode m).phase = s.phase := rfl
@[simp] theorem State.setMode_chunkIdx : (s.setMode m).chunkIdx = s.chunkIdx := rfl
@[simp] theorem State.setMode_chunkLen : (s.setMode m).chunkLen = s.chunkLen := rfl
@[simp] theorem State.setMode_chunk : (s.setMode m).chunk = s.chunk := rfl
@[simp] theorem State.setMode_coef : (s.setMode m).coef = s.coef := rfl
@[simp] theorem State.setMode_dl : (s.setMode m).dl = s.dl := rfl
@[simp] theorem State.setMode_widx : (s.setMode m).widx = s.widx := rfl
@[simp] theorem State.setMode_fifo : (s.setMode m).fifo = s.fifo := rfl
@[simp] theorem State.setMode_advcnt : (s.setMode m).advcnt = s.advcnt := rfl
@[simp] theorem State.setMode_rwcnt : (s.setMode m).rwcnt = s.rwcnt := rfl
@[simp] theorem State.setMode_smpcnt : (s.setMode m).smpcnt = s.smpcnt := rfl
@[simp] theorem State.setMode_fc : (s.setMode m).fc = s.fc := rfl
@[simp] theorem State.setMode_dev : (s.setMode m).dev = s.dev := rfl
@[simp] theorem State.setMode_fref : (s.setMode m).fref = s.fref := rfl
@[simp] theorem State.setMode_kovr : (s.setMode m).kovr = s.kovr := rfl
@[simp] theorem State.setMode_k : (s.setMode m).k = s.k := rfl
@[simp] theorem State.setMode_fom : (s.setMode m).fom = s.fom := rfl
@[simp] theorem State.setMode_mint : (s.setMode m).mint = s.mint := rfl
@[simp] theorem State.setMode_mfrac : (s.setMode m).mfrac = s.mfrac := rfl
@[simp] theorem State.setMode_tstat : (s.setMode m).tstat = s.tstat := rfl
@[simp] theorem State.setMode_agenda : (s.setMode m).agenda = s.agenda := rfl
@[simp] theorem State.setMode_src : (s.setMode m).src = s.src := rfl
@[simp] theorem State.setMode_srcReqs : (s.setMode m).srcReqs = s.srcReqs := rfl
@[simp] theorem State.setMode_rdata : (s.setMode m).rdata = s.rdata := rfl

end

/-! ## `State.setCoef` -/

section
variable (s : State) (i : Fin 64) (v : Word)

@[simp] theorem State.setCoef_par : (s.setCoef i v).par = s.par := rfl
@[simp] theorem State.setCoef_busy : (s.setCoef i v).busy = s.busy := rfl
@[simp] theorem State.setCoef_curOp : (s.setCoef i v).curOp = s.curOp := rfl
@[simp] theorem State.setCoef_prodRem : (s.setCoef i v).prodRem = s.prodRem := rfl
@[simp] theorem State.setCoef_mode : (s.setCoef i v).mode = s.mode := rfl
@[simp] theorem State.setCoef_err : (s.setCoef i v).err = s.err := rfl
@[simp] theorem State.setCoef_stereo : (s.setCoef i v).stereo = s.stereo := rfl
@[simp] theorem State.setCoef_rate : (s.setCoef i v).rate = s.rate := rfl
@[simp] theorem State.setCoef_phase : (s.setCoef i v).phase = s.phase := rfl
@[simp] theorem State.setCoef_chunkIdx : (s.setCoef i v).chunkIdx = s.chunkIdx := rfl
@[simp] theorem State.setCoef_chunkLen : (s.setCoef i v).chunkLen = s.chunkLen := rfl
@[simp] theorem State.setCoef_chunk : (s.setCoef i v).chunk = s.chunk := rfl
@[simp] theorem State.setCoef_coef : (s.setCoef i v).coef = s.coef.set i v := rfl
@[simp] theorem State.setCoef_dl : (s.setCoef i v).dl = s.dl := rfl
@[simp] theorem State.setCoef_widx : (s.setCoef i v).widx = s.widx := rfl
@[simp] theorem State.setCoef_fifo : (s.setCoef i v).fifo = s.fifo := rfl
@[simp] theorem State.setCoef_advcnt : (s.setCoef i v).advcnt = s.advcnt := rfl
@[simp] theorem State.setCoef_rwcnt : (s.setCoef i v).rwcnt = s.rwcnt := rfl
@[simp] theorem State.setCoef_smpcnt : (s.setCoef i v).smpcnt = s.smpcnt := rfl
@[simp] theorem State.setCoef_fc : (s.setCoef i v).fc = s.fc := rfl
@[simp] theorem State.setCoef_dev : (s.setCoef i v).dev = s.dev := rfl
@[simp] theorem State.setCoef_fref : (s.setCoef i v).fref = s.fref := rfl
@[simp] theorem State.setCoef_kovr : (s.setCoef i v).kovr = s.kovr := rfl
@[simp] theorem State.setCoef_k : (s.setCoef i v).k = s.k := rfl
@[simp] theorem State.setCoef_fom : (s.setCoef i v).fom = s.fom := rfl
@[simp] theorem State.setCoef_mint : (s.setCoef i v).mint = s.mint := rfl
@[simp] theorem State.setCoef_mfrac : (s.setCoef i v).mfrac = s.mfrac := rfl
@[simp] theorem State.setCoef_tstat : (s.setCoef i v).tstat = s.tstat := rfl
@[simp] theorem State.setCoef_agenda : (s.setCoef i v).agenda = s.agenda := rfl
@[simp] theorem State.setCoef_src : (s.setCoef i v).src = s.src := rfl
@[simp] theorem State.setCoef_srcReqs : (s.setCoef i v).srcReqs = s.srcReqs := rfl
@[simp] theorem State.setCoef_rdata : (s.setCoef i v).rdata = s.rdata := rfl

end

/-! ## `State.storeChunk` -/

section
variable (s : State) (fs : List Frame)

@[simp] theorem State.storeChunk_par : (s.storeChunk fs).par = s.par := rfl
@[simp] theorem State.storeChunk_busy : (s.storeChunk fs).busy = s.busy := rfl
@[simp] theorem State.storeChunk_curOp : (s.storeChunk fs).curOp = s.curOp := rfl
@[simp] theorem State.storeChunk_prodRem : (s.storeChunk fs).prodRem = s.prodRem := rfl
@[simp] theorem State.storeChunk_mode : (s.storeChunk fs).mode = s.mode := rfl
@[simp] theorem State.storeChunk_err : (s.storeChunk fs).err = s.err := rfl
@[simp] theorem State.storeChunk_stereo : (s.storeChunk fs).stereo = s.stereo := rfl
@[simp] theorem State.storeChunk_rate : (s.storeChunk fs).rate = s.rate := rfl
@[simp] theorem State.storeChunk_phase : (s.storeChunk fs).phase = s.phase := rfl
@[simp] theorem State.storeChunk_chunkIdx : (s.storeChunk fs).chunkIdx = 0 := rfl
@[simp] theorem State.storeChunk_chunkLen : (s.storeChunk fs).chunkLen = BitVec.ofNat 16 fs.length := rfl
@[simp] theorem State.storeChunk_chunk : (s.storeChunk fs).chunk = fs ++ s.chunk.drop fs.length := rfl
@[simp] theorem State.storeChunk_coef : (s.storeChunk fs).coef = s.coef := rfl
@[simp] theorem State.storeChunk_dl : (s.storeChunk fs).dl = s.dl := rfl
@[simp] theorem State.storeChunk_widx : (s.storeChunk fs).widx = s.widx := rfl
@[simp] theorem State.storeChunk_fifo : (s.storeChunk fs).fifo = s.fifo := rfl
@[simp] theorem State.storeChunk_advcnt : (s.storeChunk fs).advcnt = s.advcnt := rfl
@[simp] theorem State.storeChunk_rwcnt : (s.storeChunk fs).rwcnt = s.rwcnt := rfl
@[simp] theorem State.storeChunk_smpcnt : (s.storeChunk fs).smpcnt = s.smpcnt := rfl
@[simp] theorem State.storeChunk_fc : (s.storeChunk fs).fc = s.fc := rfl
@[simp] theorem State.storeChunk_dev : (s.storeChunk fs).dev = s.dev := rfl
@[simp] theorem State.storeChunk_fref : (s.storeChunk fs).fref = s.fref := rfl
@[simp] theorem State.storeChunk_kovr : (s.storeChunk fs).kovr = s.kovr := rfl
@[simp] theorem State.storeChunk_k : (s.storeChunk fs).k = s.k := rfl
@[simp] theorem State.storeChunk_fom : (s.storeChunk fs).fom = s.fom := rfl
@[simp] theorem State.storeChunk_mint : (s.storeChunk fs).mint = s.mint := rfl
@[simp] theorem State.storeChunk_mfrac : (s.storeChunk fs).mfrac = s.mfrac := rfl
@[simp] theorem State.storeChunk_tstat : (s.storeChunk fs).tstat = s.tstat := rfl
@[simp] theorem State.storeChunk_agenda : (s.storeChunk fs).agenda = s.agenda := rfl
@[simp] theorem State.storeChunk_src : (s.storeChunk fs).src = s.src := rfl
@[simp] theorem State.storeChunk_srcReqs : (s.storeChunk fs).srcReqs = s.srcReqs := rfl
@[simp] theorem State.storeChunk_rdata : (s.storeChunk fs).rdata = s.rdata := rfl

end

/-! ## `State.push` -/

section
variable (s : State) (w : Word)

@[simp] theorem State.push_par : (s.push w).par = s.par := rfl
@[simp] theorem State.push_busy : (s.push w).busy = s.busy := rfl
@[simp] theorem State.push_curOp : (s.push w).curOp = s.curOp := rfl
@[simp] theorem State.push_prodRem : (s.push w).prodRem = s.prodRem := rfl
@[simp] theorem State.push_mode : (s.push w).mode = s.mode := rfl
@[simp] theorem State.push_err : (s.push w).err = s.err := rfl
@[simp] theorem State.push_stereo : (s.push w).stereo = s.stereo := rfl
@[simp] theorem State.push_rate : (s.push w).rate = s.rate := rfl
@[simp] theorem State.push_phase : (s.push w).phase = s.phase := rfl
@[simp] theorem State.push_chunkIdx : (s.push w).chunkIdx = s.chunkIdx := rfl
@[simp] theorem State.push_chunkLen : (s.push w).chunkLen = s.chunkLen := rfl
@[simp] theorem State.push_chunk : (s.push w).chunk = s.chunk := rfl
@[simp] theorem State.push_coef : (s.push w).coef = s.coef := rfl
@[simp] theorem State.push_dl : (s.push w).dl = s.dl := rfl
@[simp] theorem State.push_widx : (s.push w).widx = s.widx := rfl
@[simp] theorem State.push_fifo : (s.push w).fifo = s.fifo ++ [w] := rfl
@[simp] theorem State.push_advcnt : (s.push w).advcnt = s.advcnt := rfl
@[simp] theorem State.push_rwcnt : (s.push w).rwcnt = s.rwcnt := rfl
@[simp] theorem State.push_smpcnt : (s.push w).smpcnt = s.smpcnt := rfl
@[simp] theorem State.push_fc : (s.push w).fc = s.fc := rfl
@[simp] theorem State.push_dev : (s.push w).dev = s.dev := rfl
@[simp] theorem State.push_fref : (s.push w).fref = s.fref := rfl
@[simp] theorem State.push_kovr : (s.push w).kovr = s.kovr := rfl
@[simp] theorem State.push_k : (s.push w).k = s.k := rfl
@[simp] theorem State.push_fom : (s.push w).fom = s.fom := rfl
@[simp] theorem State.push_mint : (s.push w).mint = s.mint := rfl
@[simp] theorem State.push_mfrac : (s.push w).mfrac = s.mfrac := rfl
@[simp] theorem State.push_tstat : (s.push w).tstat = s.tstat := rfl
@[simp] theorem State.push_agenda : (s.push w).agenda = s.agenda := rfl
@[simp] theorem State.push_src : (s.push w).src = s.src := rfl
@[simp] theorem State.push_srcReqs : (s.push w).srcReqs = s.srcReqs := rfl
@[simp] theorem State.push_rdata : (s.push w).rdata = s.rdata := rfl

end

/-! ## `State.countReq` -/

section
variable (s : State) 

@[simp] theorem State.countReq_par : (s.countReq).par = s.par := rfl
@[simp] theorem State.countReq_busy : (s.countReq).busy = s.busy := rfl
@[simp] theorem State.countReq_curOp : (s.countReq).curOp = s.curOp := rfl
@[simp] theorem State.countReq_prodRem : (s.countReq).prodRem = s.prodRem := rfl
@[simp] theorem State.countReq_mode : (s.countReq).mode = s.mode := rfl
@[simp] theorem State.countReq_err : (s.countReq).err = s.err := rfl
@[simp] theorem State.countReq_stereo : (s.countReq).stereo = s.stereo := rfl
@[simp] theorem State.countReq_rate : (s.countReq).rate = s.rate := rfl
@[simp] theorem State.countReq_phase : (s.countReq).phase = s.phase := rfl
@[simp] theorem State.countReq_chunkIdx : (s.countReq).chunkIdx = s.chunkIdx := rfl
@[simp] theorem State.countReq_chunkLen : (s.countReq).chunkLen = s.chunkLen := rfl
@[simp] theorem State.countReq_chunk : (s.countReq).chunk = s.chunk := rfl
@[simp] theorem State.countReq_coef : (s.countReq).coef = s.coef := rfl
@[simp] theorem State.countReq_dl : (s.countReq).dl = s.dl := rfl
@[simp] theorem State.countReq_widx : (s.countReq).widx = s.widx := rfl
@[simp] theorem State.countReq_fifo : (s.countReq).fifo = s.fifo := rfl
@[simp] theorem State.countReq_advcnt : (s.countReq).advcnt = s.advcnt := rfl
@[simp] theorem State.countReq_rwcnt : (s.countReq).rwcnt = s.rwcnt := rfl
@[simp] theorem State.countReq_smpcnt : (s.countReq).smpcnt = s.smpcnt := rfl
@[simp] theorem State.countReq_fc : (s.countReq).fc = s.fc := rfl
@[simp] theorem State.countReq_dev : (s.countReq).dev = s.dev := rfl
@[simp] theorem State.countReq_fref : (s.countReq).fref = s.fref := rfl
@[simp] theorem State.countReq_kovr : (s.countReq).kovr = s.kovr := rfl
@[simp] theorem State.countReq_k : (s.countReq).k = s.k := rfl
@[simp] theorem State.countReq_fom : (s.countReq).fom = s.fom := rfl
@[simp] theorem State.countReq_mint : (s.countReq).mint = s.mint := rfl
@[simp] theorem State.countReq_mfrac : (s.countReq).mfrac = s.mfrac := rfl
@[simp] theorem State.countReq_tstat : (s.countReq).tstat = s.tstat := rfl
@[simp] theorem State.countReq_agenda : (s.countReq).agenda = s.agenda := rfl
@[simp] theorem State.countReq_src : (s.countReq).src = s.src := rfl
@[simp] theorem State.countReq_srcReqs : (s.countReq).srcReqs = s.srcReqs + 1 := rfl
@[simp] theorem State.countReq_rdata : (s.countReq).rdata = s.rdata := rfl

end

/-! ## `State.setSrc` -/

section
variable (s : State) (src : Source)

@[simp] theorem State.setSrc_par : (s.setSrc src).par = s.par := rfl
@[simp] theorem State.setSrc_busy : (s.setSrc src).busy = s.busy := rfl
@[simp] theorem State.setSrc_curOp : (s.setSrc src).curOp = s.curOp := rfl
@[simp] theorem State.setSrc_prodRem : (s.setSrc src).prodRem = s.prodRem := rfl
@[simp] theorem State.setSrc_mode : (s.setSrc src).mode = s.mode := rfl
@[simp] theorem State.setSrc_err : (s.setSrc src).err = s.err := rfl
@[simp] theorem State.setSrc_stereo : (s.setSrc src).stereo = s.stereo := rfl
@[simp] theorem State.setSrc_rate : (s.setSrc src).rate = s.rate := rfl
@[simp] theorem State.setSrc_phase : (s.setSrc src).phase = s.phase := rfl
@[simp] theorem State.setSrc_chunkIdx : (s.setSrc src).chunkIdx = s.chunkIdx := rfl
@[simp] theorem State.setSrc_chunkLen : (s.setSrc src).chunkLen = s.chunkLen := rfl
@[simp] theorem State.setSrc_chunk : (s.setSrc src).chunk = s.chunk := rfl
@[simp] theorem State.setSrc_coef : (s.setSrc src).coef = s.coef := rfl
@[simp] theorem State.setSrc_dl : (s.setSrc src).dl = s.dl := rfl
@[simp] theorem State.setSrc_widx : (s.setSrc src).widx = s.widx := rfl
@[simp] theorem State.setSrc_fifo : (s.setSrc src).fifo = s.fifo := rfl
@[simp] theorem State.setSrc_advcnt : (s.setSrc src).advcnt = s.advcnt := rfl
@[simp] theorem State.setSrc_rwcnt : (s.setSrc src).rwcnt = s.rwcnt := rfl
@[simp] theorem State.setSrc_smpcnt : (s.setSrc src).smpcnt = s.smpcnt := rfl
@[simp] theorem State.setSrc_fc : (s.setSrc src).fc = s.fc := rfl
@[simp] theorem State.setSrc_dev : (s.setSrc src).dev = s.dev := rfl
@[simp] theorem State.setSrc_fref : (s.setSrc src).fref = s.fref := rfl
@[simp] theorem State.setSrc_kovr : (s.setSrc src).kovr = s.kovr := rfl
@[simp] theorem State.setSrc_k : (s.setSrc src).k = s.k := rfl
@[simp] theorem State.setSrc_fom : (s.setSrc src).fom = s.fom := rfl
@[simp] theorem State.setSrc_mint : (s.setSrc src).mint = s.mint := rfl
@[simp] theorem State.setSrc_mfrac : (s.setSrc src).mfrac = s.mfrac := rfl
@[simp] theorem State.setSrc_tstat : (s.setSrc src).tstat = s.tstat := rfl
@[simp] theorem State.setSrc_agenda : (s.setSrc src).agenda = s.agenda := rfl
@[simp] theorem State.setSrc_src : (s.setSrc src).src = src := rfl
@[simp] theorem State.setSrc_srcReqs : (s.setSrc src).srcReqs = s.srcReqs := rfl
@[simp] theorem State.setSrc_rdata : (s.setSrc src).rdata = s.rdata := rfl

end

/-! ## `State.countRewind` -/

section
variable (s : State) 

@[simp] theorem State.countRewind_par : (s.countRewind).par = s.par := rfl
@[simp] theorem State.countRewind_busy : (s.countRewind).busy = s.busy := rfl
@[simp] theorem State.countRewind_curOp : (s.countRewind).curOp = s.curOp := rfl
@[simp] theorem State.countRewind_prodRem : (s.countRewind).prodRem = s.prodRem := rfl
@[simp] theorem State.countRewind_mode : (s.countRewind).mode = s.mode := rfl
@[simp] theorem State.countRewind_err : (s.countRewind).err = s.err := rfl
@[simp] theorem State.countRewind_stereo : (s.countRewind).stereo = s.stereo := rfl
@[simp] theorem State.countRewind_rate : (s.countRewind).rate = s.rate := rfl
@[simp] theorem State.countRewind_phase : (s.countRewind).phase = s.phase := rfl
@[simp] theorem State.countRewind_chunkIdx : (s.countRewind).chunkIdx = s.chunkIdx := rfl
@[simp] theorem State.countRewind_chunkLen : (s.countRewind).chunkLen = s.chunkLen := rfl
@[simp] theorem State.countRewind_chunk : (s.countRewind).chunk = s.chunk := rfl
@[simp] theorem State.countRewind_coef : (s.countRewind).coef = s.coef := rfl
@[simp] theorem State.countRewind_dl : (s.countRewind).dl = s.dl := rfl
@[simp] theorem State.countRewind_widx : (s.countRewind).widx = s.widx := rfl
@[simp] theorem State.countRewind_fifo : (s.countRewind).fifo = s.fifo := rfl
@[simp] theorem State.countRewind_advcnt : (s.countRewind).advcnt = s.advcnt := rfl
@[simp] theorem State.countRewind_rwcnt : (s.countRewind).rwcnt = s.rwcnt + 1 := rfl
@[simp] theorem State.countRewind_smpcnt : (s.countRewind).smpcnt = s.smpcnt := rfl
@[simp] theorem State.countRewind_fc : (s.countRewind).fc = s.fc := rfl
@[simp] theorem State.countRewind_dev : (s.countRewind).dev = s.dev := rfl
@[simp] theorem State.countRewind_fref : (s.countRewind).fref = s.fref := rfl
@[simp] theorem State.countRewind_kovr : (s.countRewind).kovr = s.kovr := rfl
@[simp] theorem State.countRewind_k : (s.countRewind).k = s.k := rfl
@[simp] theorem State.countRewind_fom : (s.countRewind).fom = s.fom := rfl
@[simp] theorem State.countRewind_mint : (s.countRewind).mint = s.mint := rfl
@[simp] theorem State.countRewind_mfrac : (s.countRewind).mfrac = s.mfrac := rfl
@[simp] theorem State.countRewind_tstat : (s.countRewind).tstat = s.tstat := rfl
@[simp] theorem State.countRewind_agenda : (s.countRewind).agenda = s.agenda := rfl
@[simp] theorem State.countRewind_src : (s.countRewind).src = s.src := rfl
@[simp] theorem State.countRewind_srcReqs : (s.countRewind).srcReqs = s.srcReqs := rfl
@[simp] theorem State.countRewind_rdata : (s.countRewind).rdata = s.rdata := rfl

end

/-! ## `State.countAdvance` -/

section
variable (s : State) 

@[simp] theorem State.countAdvance_par : (s.countAdvance).par = s.par := rfl
@[simp] theorem State.countAdvance_busy : (s.countAdvance).busy = s.busy := rfl
@[simp] theorem State.countAdvance_curOp : (s.countAdvance).curOp = s.curOp := rfl
@[simp] theorem State.countAdvance_prodRem : (s.countAdvance).prodRem = s.prodRem := rfl
@[simp] theorem State.countAdvance_mode : (s.countAdvance).mode = s.mode := rfl
@[simp] theorem State.countAdvance_err : (s.countAdvance).err = s.err := rfl
@[simp] theorem State.countAdvance_stereo : (s.countAdvance).stereo = s.stereo := rfl
@[simp] theorem State.countAdvance_rate : (s.countAdvance).rate = s.rate := rfl
@[simp] theorem State.countAdvance_phase : (s.countAdvance).phase = s.phase := rfl
@[simp] theorem State.countAdvance_chunkIdx : (s.countAdvance).chunkIdx = s.chunkIdx := rfl
@[simp] theorem State.countAdvance_chunkLen : (s.countAdvance).chunkLen = s.chunkLen := rfl
@[simp] theorem State.countAdvance_chunk : (s.countAdvance).chunk = s.chunk := rfl
@[simp] theorem State.countAdvance_coef : (s.countAdvance).coef = s.coef := rfl
@[simp] theorem State.countAdvance_dl : (s.countAdvance).dl = s.dl := rfl
@[simp] theorem State.countAdvance_widx : (s.countAdvance).widx = s.widx := rfl
@[simp] theorem State.countAdvance_fifo : (s.countAdvance).fifo = s.fifo := rfl
@[simp] theorem State.countAdvance_advcnt : (s.countAdvance).advcnt = s.advcnt + 1 := rfl
@[simp] theorem State.countAdvance_rwcnt : (s.countAdvance).rwcnt = s.rwcnt := rfl
@[simp] theorem State.countAdvance_smpcnt : (s.countAdvance).smpcnt = s.smpcnt := rfl
@[simp] theorem State.countAdvance_fc : (s.countAdvance).fc = s.fc := rfl
@[simp] theorem State.countAdvance_dev : (s.countAdvance).dev = s.dev := rfl
@[simp] theorem State.countAdvance_fref : (s.countAdvance).fref = s.fref := rfl
@[simp] theorem State.countAdvance_kovr : (s.countAdvance).kovr = s.kovr := rfl
@[simp] theorem State.countAdvance_k : (s.countAdvance).k = s.k := rfl
@[simp] theorem State.countAdvance_fom : (s.countAdvance).fom = s.fom := rfl
@[simp] theorem State.countAdvance_mint : (s.countAdvance).mint = s.mint := rfl
@[simp] theorem State.countAdvance_mfrac : (s.countAdvance).mfrac = s.mfrac := rfl
@[simp] theorem State.countAdvance_tstat : (s.countAdvance).tstat = s.tstat := rfl
@[simp] theorem State.countAdvance_agenda : (s.countAdvance).agenda = s.agenda := rfl
@[simp] theorem State.countAdvance_src : (s.countAdvance).src = s.src := rfl
@[simp] theorem State.countAdvance_srcReqs : (s.countAdvance).srcReqs = s.srcReqs := rfl
@[simp] theorem State.countAdvance_rdata : (s.countAdvance).rdata = s.rdata := rfl

end

/-! ## `State.nextFrame` -/

section
variable (s : State) 

@[simp] theorem State.nextFrame_par : (s.nextFrame).par = s.par := rfl
@[simp] theorem State.nextFrame_busy : (s.nextFrame).busy = s.busy := rfl
@[simp] theorem State.nextFrame_curOp : (s.nextFrame).curOp = s.curOp := rfl
@[simp] theorem State.nextFrame_prodRem : (s.nextFrame).prodRem = s.prodRem := rfl
@[simp] theorem State.nextFrame_mode : (s.nextFrame).mode = s.mode := rfl
@[simp] theorem State.nextFrame_err : (s.nextFrame).err = s.err := rfl
@[simp] theorem State.nextFrame_stereo : (s.nextFrame).stereo = s.stereo := rfl
@[simp] theorem State.nextFrame_rate : (s.nextFrame).rate = s.rate := rfl
@[simp] theorem State.nextFrame_phase : (s.nextFrame).phase = s.phase := rfl
@[simp] theorem State.nextFrame_chunkIdx : (s.nextFrame).chunkIdx = s.chunkIdx + 1 := rfl
@[simp] theorem State.nextFrame_chunkLen : (s.nextFrame).chunkLen = s.chunkLen := rfl
@[simp] theorem State.nextFrame_chunk : (s.nextFrame).chunk = s.chunk := rfl
@[simp] theorem State.nextFrame_coef : (s.nextFrame).coef = s.coef := rfl
@[simp] theorem State.nextFrame_dl : (s.nextFrame).dl = s.dl := rfl
@[simp] theorem State.nextFrame_widx : (s.nextFrame).widx = s.widx := rfl
@[simp] theorem State.nextFrame_fifo : (s.nextFrame).fifo = s.fifo := rfl
@[simp] theorem State.nextFrame_advcnt : (s.nextFrame).advcnt = s.advcnt := rfl
@[simp] theorem State.nextFrame_rwcnt : (s.nextFrame).rwcnt = s.rwcnt := rfl
@[simp] theorem State.nextFrame_smpcnt : (s.nextFrame).smpcnt = s.smpcnt := rfl
@[simp] theorem State.nextFrame_fc : (s.nextFrame).fc = s.fc := rfl
@[simp] theorem State.nextFrame_dev : (s.nextFrame).dev = s.dev := rfl
@[simp] theorem State.nextFrame_fref : (s.nextFrame).fref = s.fref := rfl
@[simp] theorem State.nextFrame_kovr : (s.nextFrame).kovr = s.kovr := rfl
@[simp] theorem State.nextFrame_k : (s.nextFrame).k = s.k := rfl
@[simp] theorem State.nextFrame_fom : (s.nextFrame).fom = s.fom := rfl
@[simp] theorem State.nextFrame_mint : (s.nextFrame).mint = s.mint := rfl
@[simp] theorem State.nextFrame_mfrac : (s.nextFrame).mfrac = s.mfrac := rfl
@[simp] theorem State.nextFrame_tstat : (s.nextFrame).tstat = s.tstat := rfl
@[simp] theorem State.nextFrame_agenda : (s.nextFrame).agenda = s.agenda := rfl
@[simp] theorem State.nextFrame_src : (s.nextFrame).src = s.src := rfl
@[simp] theorem State.nextFrame_srcReqs : (s.nextFrame).srcReqs = s.srcReqs := rfl
@[simp] theorem State.nextFrame_rdata : (s.nextFrame).rdata = s.rdata := rfl

end

/-! ## `State.setPhase` -/

section
variable (s : State) (p : Nat)

@[simp] theorem State.setPhase_par : (s.setPhase p).par = s.par := rfl
@[simp] theorem State.setPhase_busy : (s.setPhase p).busy = s.busy := rfl
@[simp] theorem State.setPhase_curOp : (s.setPhase p).curOp = s.curOp := rfl
@[simp] theorem State.setPhase_prodRem : (s.setPhase p).prodRem = s.prodRem := rfl
@[simp] theorem State.setPhase_mode : (s.setPhase p).mode = s.mode := rfl
@[simp] theorem State.setPhase_err : (s.setPhase p).err = s.err := rfl
@[simp] theorem State.setPhase_stereo : (s.setPhase p).stereo = s.stereo := rfl
@[simp] theorem State.setPhase_rate : (s.setPhase p).rate = s.rate := rfl
@[simp] theorem State.setPhase_phase : (s.setPhase p).phase = BitVec.ofNat 32 p := rfl
@[simp] theorem State.setPhase_chunkIdx : (s.setPhase p).chunkIdx = s.chunkIdx := rfl
@[simp] theorem State.setPhase_chunkLen : (s.setPhase p).chunkLen = s.chunkLen := rfl
@[simp] theorem State.setPhase_chunk : (s.setPhase p).chunk = s.chunk := rfl
@[simp] theorem State.setPhase_coef : (s.setPhase p).coef = s.coef := rfl
@[simp] theorem State.setPhase_dl : (s.setPhase p).dl = s.dl := rfl
@[simp] theorem State.setPhase_widx : (s.setPhase p).widx = s.widx := rfl
@[simp] theorem State.setPhase_fifo : (s.setPhase p).fifo = s.fifo := rfl
@[simp] theorem State.setPhase_advcnt : (s.setPhase p).advcnt = s.advcnt := rfl
@[simp] theorem State.setPhase_rwcnt : (s.setPhase p).rwcnt = s.rwcnt := rfl
@[simp] theorem State.setPhase_smpcnt : (s.setPhase p).smpcnt = s.smpcnt := rfl
@[simp] theorem State.setPhase_fc : (s.setPhase p).fc = s.fc := rfl
@[simp] theorem State.setPhase_dev : (s.setPhase p).dev = s.dev := rfl
@[simp] theorem State.setPhase_fref : (s.setPhase p).fref = s.fref := rfl
@[simp] theorem State.setPhase_kovr : (s.setPhase p).kovr = s.kovr := rfl
@[simp] theorem State.setPhase_k : (s.setPhase p).k = s.k := rfl
@[simp] theorem State.setPhase_fom : (s.setPhase p).fom = s.fom := rfl
@[simp] theorem State.setPhase_mint : (s.setPhase p).mint = s.mint := rfl
@[simp] theorem State.setPhase_mfrac : (s.setPhase p).mfrac = s.mfrac := rfl
@[simp] theorem State.setPhase_tstat : (s.setPhase p).tstat = s.tstat := rfl
@[simp] theorem State.setPhase_agenda : (s.setPhase p).agenda = s.agenda := rfl
@[simp] theorem State.setPhase_src : (s.setPhase p).src = s.src := rfl
@[simp] theorem State.setPhase_srcReqs : (s.setPhase p).srcReqs = s.srcReqs := rfl
@[simp] theorem State.setPhase_rdata : (s.setPhase p).rdata = s.rdata := rfl

end

/-! ## `State.insert` -/

section
variable (s : State) (w : Word)

@[simp] theorem State.insert_par : (s.insert w).par = s.par := rfl
@[simp] theorem State.insert_busy : (s.insert w).busy = s.busy := rfl
@[simp] theorem State.insert_curOp : (s.insert w).curOp = s.curOp := rfl
@[simp] theorem State.insert_prodRem : (s.insert w).prodRem = s.prodRem := rfl
@[simp] theorem State.insert_mode : (s.insert w).mode = s.mode := rfl
@[simp] theorem State.insert_err : (s.insert w).err = s.err := rfl
@[simp] theorem State.insert_stereo : (s.insert w).stereo = s.stereo := rfl
@[simp] theorem State.insert_rate : (s.insert w).rate = s.rate := rfl
@[simp] theorem State.insert_phase : (s.insert w).phase = s.phase := rfl
@[simp] theorem State.insert_chunkIdx : (s.insert w).chunkIdx = s.chunkIdx := rfl
@[simp] theorem State.insert_chunkLen : (s.insert w).chunkLen = s.chunkLen := rfl
@[simp] theorem State.insert_chunk : (s.insert w).chunk = s.chunk := rfl
@[simp] theorem State.insert_coef : (s.insert w).coef = s.coef := rfl
@[simp] theorem State.insert_dl : (s.insert w).dl = s.dl.set (dlIndex s.widx.toNat) w := rfl
@[simp] theorem State.insert_widx : (s.insert w).widx = BitVec.ofNat 7 ((s.widx.toNat + 1) % 127) := rfl
@[simp] theorem State.insert_fifo : (s.insert w).fifo = s.fifo := rfl
@[simp] theorem State.insert_advcnt : (s.insert w).advcnt = s.advcnt := rfl
@[simp] theorem State.insert_rwcnt : (s.insert w).rwcnt = s.rwcnt := rfl
@[simp] theorem State.insert_smpcnt : (s.insert w).smpcnt = s.smpcnt := rfl
@[simp] theorem State.insert_fc : (s.insert w).fc = s.fc := rfl
@[simp] theorem State.insert_dev : (s.insert w).dev = s.dev := rfl
@[simp] theorem State.insert_fref : (s.insert w).fref = s.fref := rfl
@[simp] theorem State.insert_kovr : (s.insert w).kovr = s.kovr := rfl
@[simp] theorem State.insert_k : (s.insert w).k = s.k := rfl
@[simp] theorem State.insert_fom : (s.insert w).fom = s.fom := rfl
@[simp] theorem State.insert_mint : (s.insert w).mint = s.mint := rfl
@[simp] theorem State.insert_mfrac : (s.insert w).mfrac = s.mfrac := rfl
@[simp] theorem State.insert_tstat : (s.insert w).tstat = s.tstat := rfl
@[simp] theorem State.insert_agenda : (s.insert w).agenda = s.agenda := rfl
@[simp] theorem State.insert_src : (s.insert w).src = s.src := rfl
@[simp] theorem State.insert_srcReqs : (s.insert w).srcReqs = s.srcReqs := rfl
@[simp] theorem State.insert_rdata : (s.insert w).rdata = s.rdata := rfl

end

/-! ## `State.countSample` -/

section
variable (s : State) 

@[simp] theorem State.countSample_par : (s.countSample).par = s.par := rfl
@[simp] theorem State.countSample_busy : (s.countSample).busy = s.busy := rfl
@[simp] theorem State.countSample_curOp : (s.countSample).curOp = s.curOp := rfl
@[simp] theorem State.countSample_prodRem : (s.countSample).prodRem = s.prodRem - 1 := rfl
@[simp] theorem State.countSample_mode : (s.countSample).mode = s.mode := rfl
@[simp] theorem State.countSample_err : (s.countSample).err = s.err := rfl
@[simp] theorem State.countSample_stereo : (s.countSample).stereo = s.stereo := rfl
@[simp] theorem State.countSample_rate : (s.countSample).rate = s.rate := rfl
@[simp] theorem State.countSample_phase : (s.countSample).phase = s.phase := rfl
@[simp] theorem State.countSample_chunkIdx : (s.countSample).chunkIdx = s.chunkIdx := rfl
@[simp] theorem State.countSample_chunkLen : (s.countSample).chunkLen = s.chunkLen := rfl
@[simp] theorem State.countSample_chunk : (s.countSample).chunk = s.chunk := rfl
@[simp] theorem State.countSample_coef : (s.countSample).coef = s.coef := rfl
@[simp] theorem State.countSample_dl : (s.countSample).dl = s.dl := rfl
@[simp] theorem State.countSample_widx : (s.countSample).widx = s.widx := rfl
@[simp] theorem State.countSample_fifo : (s.countSample).fifo = s.fifo := rfl
@[simp] theorem State.countSample_advcnt : (s.countSample).advcnt = s.advcnt := rfl
@[simp] theorem State.countSample_rwcnt : (s.countSample).rwcnt = s.rwcnt := rfl
@[simp] theorem State.countSample_smpcnt : (s.countSample).smpcnt = s.smpcnt + 1 := rfl
@[simp] theorem State.countSample_fc : (s.countSample).fc = s.fc := rfl
@[simp] theorem State.countSample_dev : (s.countSample).dev = s.dev := rfl
@[simp] theorem State.countSample_fref : (s.countSample).fref = s.fref := rfl
@[simp] theorem State.countSample_kovr : (s.countSample).kovr = s.kovr := rfl
@[simp] theorem State.countSample_k : (s.countSample).k = s.k := rfl
@[simp] theorem State.countSample_fom : (s.countSample).fom = s.fom := rfl
@[simp] theorem State.countSample_mint : (s.countSample).mint = s.mint := rfl
@[simp] theorem State.countSample_mfrac : (s.countSample).mfrac = s.mfrac := rfl
@[simp] theorem State.countSample_tstat : (s.countSample).tstat = s.tstat := rfl
@[simp] theorem State.countSample_agenda : (s.countSample).agenda = s.agenda := rfl
@[simp] theorem State.countSample_src : (s.countSample).src = s.src := rfl
@[simp] theorem State.countSample_srcReqs : (s.countSample).srcReqs = s.srcReqs := rfl
@[simp] theorem State.countSample_rdata : (s.countSample).rdata = s.rdata := rfl

end

/-! ## `State.startRun` -/

section
variable (s : State) 

@[simp] theorem State.startRun_par : (s.startRun).par = s.par := rfl
@[simp] theorem State.startRun_busy : (s.startRun).busy = s.busy := rfl
@[simp] theorem State.startRun_curOp : (s.startRun).curOp = s.curOp := rfl
@[simp] theorem State.startRun_prodRem : (s.startRun).prodRem = s.prodRem := rfl
@[simp] theorem State.startRun_mode : (s.startRun).mode = .running := rfl
@[simp] theorem State.startRun_err : (s.startRun).err = s.err := rfl
@[simp] theorem State.startRun_stereo : (s.startRun).stereo = s.stereo := rfl
@[simp] theorem State.startRun_rate : (s.startRun).rate = s.rate := rfl
@[simp] theorem State.startRun_phase : (s.startRun).phase = BitVec.ofNat 32 (initialPhase s.rate.toNat) := rfl
@[simp] theorem State.startRun_chunkIdx : (s.startRun).chunkIdx = 0 := rfl
@[simp] theorem State.startRun_chunkLen : (s.startRun).chunkLen = 0 := rfl
@[simp] theorem State.startRun_chunk : (s.startRun).chunk = s.chunk := rfl
@[simp] theorem State.startRun_coef : (s.startRun).coef = s.coef := rfl
@[simp] theorem State.startRun_dl : (s.startRun).dl = Vector.replicate 127 plusZero := rfl
@[simp] theorem State.startRun_widx : (s.startRun).widx = 0 := rfl
@[simp] theorem State.startRun_fifo : (s.startRun).fifo = [] := rfl
@[simp] theorem State.startRun_advcnt : (s.startRun).advcnt = 0 := rfl
@[simp] theorem State.startRun_rwcnt : (s.startRun).rwcnt = 0 := rfl
@[simp] theorem State.startRun_smpcnt : (s.startRun).smpcnt = 0 := rfl
@[simp] theorem State.startRun_fc : (s.startRun).fc = s.fc := rfl
@[simp] theorem State.startRun_dev : (s.startRun).dev = s.dev := rfl
@[simp] theorem State.startRun_fref : (s.startRun).fref = s.fref := rfl
@[simp] theorem State.startRun_kovr : (s.startRun).kovr = s.kovr := rfl
@[simp] theorem State.startRun_k : (s.startRun).k = s.k := rfl
@[simp] theorem State.startRun_fom : (s.startRun).fom = s.fom := rfl
@[simp] theorem State.startRun_mint : (s.startRun).mint = s.mint := rfl
@[simp] theorem State.startRun_mfrac : (s.startRun).mfrac = s.mfrac := rfl
@[simp] theorem State.startRun_tstat : (s.startRun).tstat = s.tstat := rfl
@[simp] theorem State.startRun_agenda : (s.startRun).agenda = s.agenda := rfl
@[simp] theorem State.startRun_src : (s.startRun).src = s.src := rfl
@[simp] theorem State.startRun_srcReqs : (s.startRun).srcReqs = s.srcReqs := rfl
@[simp] theorem State.startRun_rdata : (s.startRun).rdata = s.rdata := rfl

end

/-! ## `State.setTune` -/

section
variable (s : State) (k fom : Nat) (fail ovr : Bool)

@[simp] theorem State.setTune_par : (s.setTune k fom fail ovr).par = s.par := rfl
@[simp] theorem State.setTune_busy : (s.setTune k fom fail ovr).busy = s.busy := rfl
@[simp] theorem State.setTune_curOp : (s.setTune k fom fail ovr).curOp = s.curOp := rfl
@[simp] theorem State.setTune_prodRem : (s.setTune k fom fail ovr).prodRem = s.prodRem := rfl
@[simp] theorem State.setTune_mode : (s.setTune k fom fail ovr).mode = s.mode := rfl
@[simp] theorem State.setTune_err : (s.setTune k fom fail ovr).err = s.err := rfl
@[simp] theorem State.setTune_stereo : (s.setTune k fom fail ovr).stereo = s.stereo := rfl
@[simp] theorem State.setTune_rate : (s.setTune k fom fail ovr).rate = s.rate := rfl
@[simp] theorem State.setTune_phase : (s.setTune k fom fail ovr).phase = s.phase := rfl
@[simp] theorem State.setTune_chunkIdx : (s.setTune k fom fail ovr).chunkIdx = s.chunkIdx := rfl
@[simp] theorem State.setTune_chunkLen : (s.setTune k fom fail ovr).chunkLen = s.chunkLen := rfl
@[simp] theorem State.setTune_chunk : (s.setTune k fom fail ovr).chunk = s.chunk := rfl
@[simp] theorem State.setTune_coef : (s.setTune k fom fail ovr).coef = s.coef := rfl
@[simp] theorem State.setTune_dl : (s.setTune k fom fail ovr).dl = s.dl := rfl
@[simp] theorem State.setTune_widx : (s.setTune k fom fail ovr).widx = s.widx := rfl
@[simp] theorem State.setTune_fifo : (s.setTune k fom fail ovr).fifo = s.fifo := rfl
@[simp] theorem State.setTune_advcnt : (s.setTune k fom fail ovr).advcnt = s.advcnt := rfl
@[simp] theorem State.setTune_rwcnt : (s.setTune k fom fail ovr).rwcnt = s.rwcnt := rfl
@[simp] theorem State.setTune_smpcnt : (s.setTune k fom fail ovr).smpcnt = s.smpcnt := rfl
@[simp] theorem State.setTune_fc : (s.setTune k fom fail ovr).fc = s.fc := rfl
@[simp] theorem State.setTune_dev : (s.setTune k fom fail ovr).dev = s.dev := rfl
@[simp] theorem State.setTune_fref : (s.setTune k fom fail ovr).fref = s.fref := rfl
@[simp] theorem State.setTune_kovr : (s.setTune k fom fail ovr).kovr = s.kovr := rfl
@[simp] theorem State.setTune_k : (s.setTune k fom fail ovr).k = BitVec.ofNat 8 k := rfl
@[simp] theorem State.setTune_fom : (s.setTune k fom fail ovr).fom = BitVec.ofNat 2 fom := rfl
@[simp] theorem State.setTune_mint : (s.setTune k fom fail ovr).mint = if fail then 0 else s.tuneIn.multInt k := rfl
@[simp] theorem State.setTune_mfrac : (s.setTune k fom fail ovr).mfrac = if fail then 0 else s.tuneIn.multFrac k := rfl
@[simp] theorem State.setTune_tstat : (s.setTune k fom fail ovr).tstat = tstatBits true fail ovr := rfl
@[simp] theorem State.setTune_agenda : (s.setTune k fom fail ovr).agenda = s.agenda := rfl
@[simp] theorem State.setTune_src : (s.setTune k fom fail ovr).src = s.src := rfl
@[simp] theorem State.setTune_srcReqs : (s.setTune k fom fail ovr).srcReqs = s.srcReqs := rfl
@[simp] theorem State.setTune_rdata : (s.setTune k fom fail ovr).rdata = s.rdata := rfl

end

/-! ## `State.setRdata` -/

section
variable (s : State) (v : Word)

@[simp] theorem State.setRdata_par : (s.setRdata v).par = s.par := rfl
@[simp] theorem State.setRdata_busy : (s.setRdata v).busy = s.busy := rfl
@[simp] theorem State.setRdata_curOp : (s.setRdata v).curOp = s.curOp := rfl
@[simp] theorem State.setRdata_prodRem : (s.setRdata v).prodRem = s.prodRem := rfl
@[simp] theorem State.setRdata_mode : (s.setRdata v).mode = s.mode := rfl
@[simp] theorem State.setRdata_err : (s.setRdata v).err = s.err := rfl
@[simp] theorem State.setRdata_stereo : (s.setRdata v).stereo = s.stereo := rfl
@[simp] theorem State.setRdata_rate : (s.setRdata v).rate = s.rate := rfl
@[simp] theorem State.setRdata_phase : (s.setRdata v).phase = s.phase := rfl
@[simp] theorem State.setRdata_chunkIdx : (s.setRdata v).chunkIdx = s.chunkIdx := rfl
@[simp] theorem State.setRdata_chunkLen : (s.setRdata v).chunkLen = s.chunkLen := rfl
@[simp] theorem State.setRdata_chunk : (s.setRdata v).chunk = s.chunk := rfl
@[simp] theorem State.setRdata_coef : (s.setRdata v).coef = s.coef := rfl
@[simp] theorem State.setRdata_dl : (s.setRdata v).dl = s.dl := rfl
@[simp] theorem State.setRdata_widx : (s.setRdata v).widx = s.widx := rfl
@[simp] theorem State.setRdata_fifo : (s.setRdata v).fifo = s.fifo := rfl
@[simp] theorem State.setRdata_advcnt : (s.setRdata v).advcnt = s.advcnt := rfl
@[simp] theorem State.setRdata_rwcnt : (s.setRdata v).rwcnt = s.rwcnt := rfl
@[simp] theorem State.setRdata_smpcnt : (s.setRdata v).smpcnt = s.smpcnt := rfl
@[simp] theorem State.setRdata_fc : (s.setRdata v).fc = s.fc := rfl
@[simp] theorem State.setRdata_dev : (s.setRdata v).dev = s.dev := rfl
@[simp] theorem State.setRdata_fref : (s.setRdata v).fref = s.fref := rfl
@[simp] theorem State.setRdata_kovr : (s.setRdata v).kovr = s.kovr := rfl
@[simp] theorem State.setRdata_k : (s.setRdata v).k = s.k := rfl
@[simp] theorem State.setRdata_fom : (s.setRdata v).fom = s.fom := rfl
@[simp] theorem State.setRdata_mint : (s.setRdata v).mint = s.mint := rfl
@[simp] theorem State.setRdata_mfrac : (s.setRdata v).mfrac = s.mfrac := rfl
@[simp] theorem State.setRdata_tstat : (s.setRdata v).tstat = s.tstat := rfl
@[simp] theorem State.setRdata_agenda : (s.setRdata v).agenda = s.agenda := rfl
@[simp] theorem State.setRdata_src : (s.setRdata v).src = s.src := rfl
@[simp] theorem State.setRdata_srcReqs : (s.setRdata v).srcReqs = s.srcReqs := rfl
@[simp] theorem State.setRdata_rdata : (s.setRdata v).rdata = v := rfl

end

/-! ## `State.resetBlock` -/

section
variable (s : State) 

@[simp] theorem State.resetBlock_par : (s.resetBlock).par = s.par := rfl
@[simp] theorem State.resetBlock_busy : (s.resetBlock).busy = false := rfl
@[simp] theorem State.resetBlock_curOp : (s.resetBlock).curOp = 0 := rfl
@[simp] theorem State.resetBlock_prodRem : (s.resetBlock).prodRem = 0 := rfl
@[simp] theorem State.resetBlock_mode : (s.resetBlock).mode = .idle := rfl
@[simp] theorem State.resetBlock_err : (s.resetBlock).err = 0 := rfl
@[simp] theorem State.resetBlock_stereo : (s.resetBlock).stereo = false := rfl
@[simp] theorem State.resetBlock_rate : (s.resetBlock).rate = 0 := rfl
@[simp] theorem State.resetBlock_phase : (s.resetBlock).phase = 0 := rfl
@[simp] theorem State.resetBlock_chunkIdx : (s.resetBlock).chunkIdx = 0 := rfl
@[simp] theorem State.resetBlock_chunkLen : (s.resetBlock).chunkLen = 0 := rfl
@[simp] theorem State.resetBlock_chunk : (s.resetBlock).chunk = [] := rfl
@[simp] theorem State.resetBlock_coef : (s.resetBlock).coef = Vector.replicate 64 0 := rfl
@[simp] theorem State.resetBlock_dl : (s.resetBlock).dl = Vector.replicate 127 0 := rfl
@[simp] theorem State.resetBlock_widx : (s.resetBlock).widx = 0 := rfl
@[simp] theorem State.resetBlock_fifo : (s.resetBlock).fifo = [] := rfl
@[simp] theorem State.resetBlock_advcnt : (s.resetBlock).advcnt = 0 := rfl
@[simp] theorem State.resetBlock_rwcnt : (s.resetBlock).rwcnt = 0 := rfl
@[simp] theorem State.resetBlock_smpcnt : (s.resetBlock).smpcnt = 0 := rfl
@[simp] theorem State.resetBlock_fc : (s.resetBlock).fc = 0 := rfl
@[simp] theorem State.resetBlock_dev : (s.resetBlock).dev = 0 := rfl
@[simp] theorem State.resetBlock_fref : (s.resetBlock).fref = 0 := rfl
@[simp] theorem State.resetBlock_kovr : (s.resetBlock).kovr = 0 := rfl
@[simp] theorem State.resetBlock_k : (s.resetBlock).k = 0 := rfl
@[simp] theorem State.resetBlock_fom : (s.resetBlock).fom = 0 := rfl
@[simp] theorem State.resetBlock_mint : (s.resetBlock).mint = 0 := rfl
@[simp] theorem State.resetBlock_mfrac : (s.resetBlock).mfrac = 0 := rfl
@[simp] theorem State.resetBlock_tstat : (s.resetBlock).tstat = 0 := rfl
@[simp] theorem State.resetBlock_agenda : (s.resetBlock).agenda = s.agenda := rfl
@[simp] theorem State.resetBlock_src : (s.resetBlock).src = s.src := rfl
@[simp] theorem State.resetBlock_srcReqs : (s.resetBlock).srcReqs = s.srcReqs := rfl
@[simp] theorem State.resetBlock_rdata : (s.resetBlock).rdata = s.rdata := rfl

end

/-! ## `State.pop`: the read of `OUT_DATA` -/

section
variable (s : State)

@[simp] theorem State.pop_par : s.pop.2.par = s.par := by unfold State.pop; split <;> rfl
@[simp] theorem State.pop_busy : s.pop.2.busy = s.busy := by unfold State.pop; split <;> rfl
@[simp] theorem State.pop_curOp : s.pop.2.curOp = s.curOp := by unfold State.pop; split <;> rfl
@[simp] theorem State.pop_prodRem : s.pop.2.prodRem = s.prodRem := by unfold State.pop; split <;> rfl
@[simp] theorem State.pop_mode : s.pop.2.mode = s.mode := by unfold State.pop; split <;> rfl
@[simp] theorem State.pop_stereo : s.pop.2.stereo = s.stereo := by unfold State.pop; split <;> rfl
@[simp] theorem State.pop_rate : s.pop.2.rate = s.rate := by unfold State.pop; split <;> rfl
@[simp] theorem State.pop_phase : s.pop.2.phase = s.phase := by unfold State.pop; split <;> rfl
@[simp] theorem State.pop_chunkIdx : s.pop.2.chunkIdx = s.chunkIdx := by unfold State.pop; split <;> rfl
@[simp] theorem State.pop_chunkLen : s.pop.2.chunkLen = s.chunkLen := by unfold State.pop; split <;> rfl
@[simp] theorem State.pop_chunk : s.pop.2.chunk = s.chunk := by unfold State.pop; split <;> rfl
@[simp] theorem State.pop_coef : s.pop.2.coef = s.coef := by unfold State.pop; split <;> rfl
@[simp] theorem State.pop_dl : s.pop.2.dl = s.dl := by unfold State.pop; split <;> rfl
@[simp] theorem State.pop_widx : s.pop.2.widx = s.widx := by unfold State.pop; split <;> rfl
@[simp] theorem State.pop_advcnt : s.pop.2.advcnt = s.advcnt := by unfold State.pop; split <;> rfl
@[simp] theorem State.pop_rwcnt : s.pop.2.rwcnt = s.rwcnt := by unfold State.pop; split <;> rfl
@[simp] theorem State.pop_smpcnt : s.pop.2.smpcnt = s.smpcnt := by unfold State.pop; split <;> rfl
@[simp] theorem State.pop_fc : s.pop.2.fc = s.fc := by unfold State.pop; split <;> rfl
@[simp] theorem State.pop_dev : s.pop.2.dev = s.dev := by unfold State.pop; split <;> rfl
@[simp] theorem State.pop_fref : s.pop.2.fref = s.fref := by unfold State.pop; split <;> rfl
@[simp] theorem State.pop_kovr : s.pop.2.kovr = s.kovr := by unfold State.pop; split <;> rfl
@[simp] theorem State.pop_k : s.pop.2.k = s.k := by unfold State.pop; split <;> rfl
@[simp] theorem State.pop_fom : s.pop.2.fom = s.fom := by unfold State.pop; split <;> rfl
@[simp] theorem State.pop_mint : s.pop.2.mint = s.mint := by unfold State.pop; split <;> rfl
@[simp] theorem State.pop_mfrac : s.pop.2.mfrac = s.mfrac := by unfold State.pop; split <;> rfl
@[simp] theorem State.pop_tstat : s.pop.2.tstat = s.tstat := by unfold State.pop; split <;> rfl
@[simp] theorem State.pop_agenda : s.pop.2.agenda = s.agenda := by unfold State.pop; split <;> rfl
@[simp] theorem State.pop_src : s.pop.2.src = s.src := by unfold State.pop; split <;> rfl
@[simp] theorem State.pop_srcReqs : s.pop.2.srcReqs = s.srcReqs := by unfold State.pop; split <;> rfl
@[simp] theorem State.pop_rdata : s.pop.2.rdata = s.rdata := by unfold State.pop; split <;> rfl

/-- Everything a read of `OUT_DATA` can do. -/
theorem State.pop_spec :
    (s.fifo = [] ∧ s.pop = (0, s.raise .underflow)) ∨
      ∃ w rest, s.fifo = w :: rest ∧ s.pop = (w, { s with fifo := rest }) := by
  unfold State.pop
  split
  · exact .inl ⟨‹_›, rfl⟩
  · exact .inr ⟨_, _, ‹_›, rfl⟩

end

end Sys2Proof.Machine
end

