-- ==== Sys2Proof/Laws/Source.lean ====
section
/-! SUPPORT. Everything the two source requests can do (42_upsampler.md R184, R185, R197). -/

namespace Sys2Proof.Machine

theorem ReadAnswer.upTo_frames {a : ReadAnswer} {n : Nat} {fs : List Frame} (h : a.upTo n = .frames fs) :
    fs.length ≤ n := by
  cases a with
  | error => simp [ReadAnswer.upTo] at h
  | frames gs =>
    simp only [ReadAnswer.upTo, ReadAnswer.frames.injEq] at h
    subst h
    simp

theorem State.fileFrames_length (s : State) (n : Nat) (stereo : Bool) (stream : List Frame) (pos : Nat) :
    (s.fileFrames n stereo stream pos).length = min n (stream.length - pos) := by
  unfold State.fileFrames
  split <;> simp

/-- An answered read moves only the source and the request count on, and brings at most the frames asked for. -/
theorem State.srcRead_spec {s t : State} {a : ReadAnswer} (h : s.srcRead = .answered a t) :
    t = { s with src := t.src, srcReqs := s.srcReqs + 1 } ∧
      ∀ fs, a = .frames fs → fs.length ≤ s.par.chunkFrames := by
  unfold State.srcRead at h
  split at h
  · split at h
    · cases h
      exact ⟨rfl, fun fs hfs => by cases hfs; assumption⟩
    · cases h
  · cases h
    exact ⟨rfl, fun fs hfs => by cases hfs⟩
  · cases h
    refine ⟨?_, fun fs hfs => ReadAnswer.upTo_frames hfs⟩
    simp [State.countReq]
  · cases h
    refine ⟨rfl, fun fs hfs => ?_⟩
    cases hfs
    rw [State.fileFrames_length]
    omega
  · cases h
    refine ⟨?_, fun fs hfs => by cases hfs⟩
    simp [State.countReq]
  · cases h

/-- An answered rewind moves only the source and the request count on. -/
theorem State.srcRewind_spec {s t : State} {a : RewindAnswer} (h : s.srcRewind = .answered a t) :
    t = { s with src := t.src, srcReqs := s.srcReqs + 1 } := by
  unfold State.srcRewind at h
  split at h <;> cases h <;> rfl

end Sys2Proof.Machine
end

