-- ==== Sys2Proof/Laws/Upsampler.lean ====
section
/-! SUPPORT. Everything a refill, an advance, advances in a row and a phase step can do (42_upsampler.md R183,
R186, R187). -/

namespace Sys2Proof.Machine

/-- `t` differs from `s` in nothing but the source and the count of rewinds: what a failed refill leaves (R187). -/
def State.RequestsOnly (s t : State) : Prop :=
  t = { s with rwcnt := t.rwcnt, src := t.src, srcReqs := t.srcReqs } ∧ s.srcReqs ≤ t.srcReqs

/-- `t` differs from `s` in nothing but the upsampler's state and the source. -/
def State.UpsamplerOnly (s t : State) : Prop :=
  t = { s with
    phase := t.phase
    advcnt := t.advcnt
    rwcnt := t.rwcnt
    chunkIdx := t.chunkIdx
    chunkLen := t.chunkLen
    chunk := t.chunk
    src := t.src
    srcReqs := t.srcReqs }

/-- The chunk holds a current frame. -/
abbrev State.HasFrame (s : State) : Prop :=
  s.chunkIdx.toNat < s.chunkLen.toNat ∧ s.chunkLen.toNat ≤ s.chunk.length ∧ s.chunk.length ≤ s.par.chunkFrames

/-! ## What the upsampler leaves alone -/

section
variable {s t : State}

theorem State.UpsamplerOnly.par (h : s.UpsamplerOnly t) : t.par = s.par := (congrArg State.par h :)
theorem State.UpsamplerOnly.busy (h : s.UpsamplerOnly t) : t.busy = s.busy := (congrArg State.busy h :)
theorem State.UpsamplerOnly.curOp (h : s.UpsamplerOnly t) : t.curOp = s.curOp := (congrArg State.curOp h :)
theorem State.UpsamplerOnly.prodRem (h : s.UpsamplerOnly t) : t.prodRem = s.prodRem := (congrArg State.prodRem h :)
theorem State.UpsamplerOnly.mode (h : s.UpsamplerOnly t) : t.mode = s.mode := (congrArg State.mode h :)
theorem State.UpsamplerOnly.err (h : s.UpsamplerOnly t) : t.err = s.err := (congrArg State.err h :)
theorem State.UpsamplerOnly.stereo (h : s.UpsamplerOnly t) : t.stereo = s.stereo := (congrArg State.stereo h :)
theorem State.UpsamplerOnly.rate (h : s.UpsamplerOnly t) : t.rate = s.rate := (congrArg State.rate h :)
theorem State.UpsamplerOnly.coef (h : s.UpsamplerOnly t) : t.coef = s.coef := (congrArg State.coef h :)
theorem State.UpsamplerOnly.dl (h : s.UpsamplerOnly t) : t.dl = s.dl := (congrArg State.dl h :)
theorem State.UpsamplerOnly.widx (h : s.UpsamplerOnly t) : t.widx = s.widx := (congrArg State.widx h :)
theorem State.UpsamplerOnly.fifo (h : s.UpsamplerOnly t) : t.fifo = s.fifo := (congrArg State.fifo h :)
theorem State.UpsamplerOnly.smpcnt (h : s.UpsamplerOnly t) : t.smpcnt = s.smpcnt := (congrArg State.smpcnt h :)
theorem State.UpsamplerOnly.fc (h : s.UpsamplerOnly t) : t.fc = s.fc := (congrArg State.fc h :)
theorem State.UpsamplerOnly.dev (h : s.UpsamplerOnly t) : t.dev = s.dev := (congrArg State.dev h :)
theorem State.UpsamplerOnly.fref (h : s.UpsamplerOnly t) : t.fref = s.fref := (congrArg State.fref h :)
theorem State.UpsamplerOnly.kovr (h : s.UpsamplerOnly t) : t.kovr = s.kovr := (congrArg State.kovr h :)
theorem State.UpsamplerOnly.k (h : s.UpsamplerOnly t) : t.k = s.k := (congrArg State.k h :)
theorem State.UpsamplerOnly.fom (h : s.UpsamplerOnly t) : t.fom = s.fom := (congrArg State.fom h :)
theorem State.UpsamplerOnly.mint (h : s.UpsamplerOnly t) : t.mint = s.mint := (congrArg State.mint h :)
theorem State.UpsamplerOnly.mfrac (h : s.UpsamplerOnly t) : t.mfrac = s.mfrac := (congrArg State.mfrac h :)
theorem State.UpsamplerOnly.tstat (h : s.UpsamplerOnly t) : t.tstat = s.tstat := (congrArg State.tstat h :)
theorem State.UpsamplerOnly.agenda (h : s.UpsamplerOnly t) : t.agenda = s.agenda := (congrArg State.agenda h :)
theorem State.UpsamplerOnly.rdata (h : s.UpsamplerOnly t) : t.rdata = s.rdata := (congrArg State.rdata h :)

end

theorem State.UpsamplerOnly.refl (s : State) : s.UpsamplerOnly s := rfl

theorem State.UpsamplerOnly.trans {s t u : State} (h : s.UpsamplerOnly t) (h' : t.UpsamplerOnly u) :
    s.UpsamplerOnly u := by
  unfold State.UpsamplerOnly at *
  rw [h] at h'
  exact h'

theorem State.RequestsOnly.toUpsamplerOnly {s t : State} (h : s.RequestsOnly t) : s.UpsamplerOnly t := by
  have e := h.1
  unfold State.UpsamplerOnly
  rw [e]

/-- What a state after requests keeps for a refill. -/
theorem State.srcRead_requestsOnly {s t : State} {a : ReadAnswer} (h : s.srcRead = .answered a t) :
    s.RequestsOnly t ∧ t.srcReqs = s.srcReqs + 1 ∧ t.rwcnt = s.rwcnt := by
  have e := (State.srcRead_spec h).1
  refine ⟨⟨?_, ?_⟩, ?_, ?_⟩ <;> rw [e]
  simp

theorem State.srcRewind_requestsOnly {s t : State} {a : RewindAnswer} (h : s.srcRewind = .answered a t) :
    s.RequestsOnly t ∧ t.srcReqs = s.srcReqs + 1 ∧ t.rwcnt = s.rwcnt := by
  have e := State.srcRewind_spec h
  refine ⟨⟨?_, ?_⟩, ?_, ?_⟩ <;> rw [e]
  simp

theorem State.RequestsOnly.trans {s t u : State} (h : s.RequestsOnly t) (h' : t.RequestsOnly u) :
    s.RequestsOnly u := by
  refine ⟨?_, h.2.trans h'.2⟩
  have e := h'.1
  rw [h.1] at e
  exact e

theorem State.countRewind_requestsOnly (s : State) : s.RequestsOnly s.countRewind := ⟨rfl, Nat.le_refl _⟩

/-- What a refill leaves when it succeeds: after at most three requests, some frames that fit the buffer are stored. -/
def State.Refilled (s t : State) : Prop :=
  ∃ (u : State) (f : Frame) (fs : List Frame), s.RequestsOnly u ∧ u.srcReqs ≤ s.srcReqs + 3 ∧
    (f :: fs).length ≤ s.par.chunkFrames ∧ t = u.storeChunk (f :: fs)

/-- What a refill leaves when it fails. -/
def State.RefillFailed (s : State) (e : Cause) (t : State) : Prop :=
  (e = .audioIo ∨ e = .emptySrc) ∧ s.RequestsOnly t ∧ t.srcReqs ≤ s.srcReqs + 3 ∧
    (t.rwcnt = s.rwcnt ∨ t.rwcnt = s.rwcnt + 1)

theorem State.RequestsOnly.par {s t : State} (h : s.RequestsOnly t) : t.par = s.par := by rw [h.1]

theorem State.refillRewound_spec (s : State) :
    (∀ t, s.refillRewound = .ok t →
      ∃ (u : State) (f : Frame) (fs : List Frame), s.RequestsOnly u ∧ u.srcReqs = s.srcReqs + 1 ∧
        (f :: fs).length ≤ s.par.chunkFrames ∧ t = u.storeChunk (f :: fs)) ∧
    (∀ e t, s.refillRewound = .fail e t →
      (e = .audioIo ∨ e = .emptySrc) ∧ s.RequestsOnly t ∧ t.srcReqs = s.srcReqs + 1 ∧ t.rwcnt = s.rwcnt) := by
  unfold State.refillRewound
  constructor
  · intro t h
    split at h <;> cases h
    rename_i f fs u hr
    exact ⟨u, f, fs, (State.srcRead_requestsOnly hr).1, (State.srcRead_requestsOnly hr).2.1,
      (State.srcRead_spec hr).2 _ rfl, rfl⟩
  · intro e t h
    split at h <;> cases h <;> rename_i hr
    · exact ⟨.inl rfl, State.srcRead_requestsOnly hr⟩
    · exact ⟨.inr rfl, State.srcRead_requestsOnly hr⟩

/-- Everything a refill can do (R187). -/
theorem State.refill_spec (s : State) :
    (∀ t, s.refill = .ok t → s.Refilled t) ∧ (∀ e t, s.refill = .fail e t → s.RefillFailed e t) := by
  unfold State.refill
  constructor
  · intro t h
    split at h
    · cases h
    · rename_i u hr
      split at h
      · cases h
      · rename_i v hw
        obtain ⟨w, f, fs, hro, hreq, hlen, ht⟩ := (State.refillRewound_spec v.countRewind).1 t h
        have h1 := State.srcRead_requestsOnly hr
        have h2 := State.srcRewind_requestsOnly hw
        have hall := ((h1.1.trans h2.1).trans v.countRewind_requestsOnly)
        refine ⟨w, f, fs, hall.trans hro, ?_, ?_, ht⟩
        · rw [hreq, State.countRewind_srcReqs, h2.2.1, h1.2.1]
        · rw [← hall.par]; exact hlen
      · cases h
      · cases h
    · rename_i f fs u hr
      cases h
      have h1 := State.srcRead_requestsOnly hr
      exact ⟨u, f, fs, h1.1, by omega, (State.srcRead_spec hr).2 _ rfl, rfl⟩
    · cases h
    · cases h
  · intro e t h
    split at h
    · rename_i hr
      cases h
      have h1 := State.srcRead_requestsOnly hr
      exact ⟨.inl rfl, h1.1, by omega, .inl h1.2.2⟩
    · rename_i u hr
      have h1 := State.srcRead_requestsOnly hr
      split at h
      · rename_i hw
        cases h
        have h2 := State.srcRewind_requestsOnly hw
        exact ⟨.inl rfl, h1.1.trans h2.1, by omega, .inl (h2.2.2.trans h1.2.2)⟩
      · rename_i v hw
        have h2 := State.srcRewind_requestsOnly hw
        obtain ⟨he, hro, hreq, hrw⟩ := (State.refillRewound_spec v.countRewind).2 e t h
        refine ⟨he, ((h1.1.trans h2.1).trans v.countRewind_requestsOnly).trans hro, ?_, .inr ?_⟩
        · rw [hreq, State.countRewind_srcReqs]; omega
        · rw [hrw, State.countRewind_rwcnt, h2.2.2, h1.2.2]
      · cases h
      · cases h
    · cases h
    · cases h
    · cases h

/-- Everything a frame advance can do (R186): the next frame of the chunk, or the first frame of a new one. -/
theorem State.advance_spec (s : State) :
    (∀ t, s.advance = .ok t →
      (s.chunkIdx.toNat + 1 < s.chunkLen.toNat ∧ t = s.nextFrame.countAdvance) ∨
        (¬ s.chunkIdx.toNat + 1 < s.chunkLen.toNat ∧ ∃ u, s.Refilled u ∧ t = u.countAdvance)) ∧
    (∀ e t, s.advance = .fail e t → ¬ s.chunkIdx.toNat + 1 < s.chunkLen.toNat ∧ s.RefillFailed e t) := by
  unfold State.advance
  constructor
  · intro t h
    split at h
    · cases h; exact .inl ⟨‹_›, rfl⟩
    · split at h
      · rename_i u hu
        cases h
        exact .inr ⟨‹_›, u, (State.refill_spec s).1 u hu, rfl⟩
      · rename_i hne
        exact absurd h (fun hk => hne _ hk)
  · intro e t h
    split at h
    · cases h
    · split at h
      · cases h
      · exact ⟨‹_›, (State.refill_spec s).2 e t h⟩

theorem State.Refilled.upsamplerOnly {s t : State} (h : s.Refilled t) : s.UpsamplerOnly t := by
  obtain ⟨u, f, fs, hro, -, -, rfl⟩ := h
  refine hro.toUpsamplerOnly.trans ?_
  rfl


theorem State.Refilled.fields {s t : State} (h : s.Refilled t) :
    t.phase = s.phase ∧ t.advcnt = s.advcnt ∧ t.srcReqs ≤ s.srcReqs + 3 := by
  obtain ⟨u, f, fs, hro, hreq, -, rfl⟩ := h
  have e := hro.1
  refine ⟨?_, ?_, hreq⟩
  · rw [State.storeChunk_phase, e]
  · rw [State.storeChunk_advcnt, e]

/-- A refill leaves the first of the frames it brought as the current one. -/
theorem State.Refilled.hasFrame {s t : State} (h : s.Refilled t) (hcf : s.par.chunkFrames ≤ 65535)
    (hch : s.chunk.length ≤ s.par.chunkFrames) : t.HasFrame := by
  obtain ⟨u, f, fs, hro, -, hlen, rfl⟩ := h
  have hu : u.chunk = s.chunk := by rw [hro.1]
  have hp : u.par = s.par := hro.par
  simp only [State.HasFrame, State.storeChunk_chunkIdx, State.storeChunk_chunkLen, State.storeChunk_chunk,
    State.storeChunk_par, hu, hp, List.length_append, List.length_drop, BitVec.toNat_ofNat, BitVec.ofNat_eq_ofNat,
    Nat.reducePow, Nat.zero_mod] at *
  have : (f :: fs).length % 65536 = (f :: fs).length := Nat.mod_eq_of_lt (by omega)
  rw [this]
  simp only [List.length_cons] at *
  omega

/-- A successful advance: what it touches, what it counts, and how many requests it made. -/
theorem State.advance_ok {s t : State} (h : s.advance = .ok t) :
    s.UpsamplerOnly t ∧ t.phase = s.phase ∧ t.advcnt = s.advcnt + 1 ∧ t.srcReqs ≤ s.srcReqs + 3 := by
  rcases (State.advance_spec s).1 t h with ⟨-, rfl⟩ | ⟨-, u, hu, rfl⟩
  · exact ⟨rfl, rfl, rfl, by simp⟩
  · have := hu.fields
    refine ⟨hu.upsamplerOnly.trans rfl, this.1, ?_, this.2.2⟩
    rw [State.countAdvance_advcnt, this.2.1]

/-- A successful advance leaves a current frame. -/
theorem State.advance_hasFrame {s t : State} (h : s.advance = .ok t) (hcf : s.par.chunkFrames ≤ 65535)
    (hch : s.chunk.length ≤ s.par.chunkFrames) (hlen : s.chunkLen.toNat ≤ s.chunk.length) : t.HasFrame := by
  rcases (State.advance_spec s).1 t h with ⟨hlt, rfl⟩ | ⟨-, u, hu, rfl⟩
  · have := s.chunkLen.isLt
    refine ⟨?_, hlen, hch⟩
    simp only [State.countAdvance_chunkIdx, State.nextFrame_chunkIdx, State.countAdvance_chunkLen,
      State.nextFrame_chunkLen, BitVec.toNat_add, BitVec.ofNat_eq_ofNat, BitVec.toNat_ofNat]
    omega
  · exact hu.hasFrame hcf hch

/-- A failed advance: what it touches. -/
theorem State.advance_fail {s t : State} {e : Cause} (h : s.advance = .fail e t) :
    (e = .audioIo ∨ e = .emptySrc) ∧ s.RequestsOnly t ∧ t.srcReqs ≤ s.srcReqs + 3 := by
  obtain ⟨-, he, hro, hreq, -⟩ := (State.advance_spec s).2 e t h
  exact ⟨he, hro, hreq⟩

/-- What is left of a phase step's advances after `a` of them that succeeded (R183). -/
theorem State.phaseLoop_after {a b p : Nat} {s v : State} (h : s.advances a = .ok v) :
    s.phaseLoop (a + b) p = v.phaseLoop b (p - Config.outRate * a) := by
  induction a generalizing s p with
  | zero => cases h; simp
  | succ a ih =>
    simp only [State.advances] at h
    split at h
    · rename_i u hu
      rw [Nat.succ_add, State.phaseLoop, hu]
      simp only [ih h, Nat.mul_succ, Nat.sub_sub, Nat.add_comm (Config.outRate * a)]
    · rename_i hne
      exact absurd h (hne v)

/-- Advances that the current chunk serves: the cursor moves on and they are counted; no request is made (R186). -/
theorem State.advances_chunk {a : Nat} {s : State} (h : s.chunkIdx.toNat + a < s.chunkLen.toNat) :
    s.advances a =
      .ok { s with chunkIdx := s.chunkIdx + BitVec.ofNat 16 a, advcnt := s.advcnt + BitVec.ofNat 32 a } := by
  induction a generalizing s with
  | zero => simp [State.advances]
  | succ a ih =>
    have hadv : s.advance = .ok s.nextFrame.countAdvance := if_pos (by omega)
    have hlen := s.chunkLen.isLt
    have hx : s.nextFrame.countAdvance.chunkIdx.toNat = s.chunkIdx.toNat + 1 := by
      rw [State.countAdvance_chunkIdx, State.nextFrame_chunkIdx, BitVec.toNat_add]
      exact Nat.mod_eq_of_lt (by change s.chunkIdx.toNat + 1 < 2 ^ 16; omega)
    simp only [State.advances, hadv]
    rw [ih (by rw [hx, State.countAdvance_chunkLen, State.nextFrame_chunkLen]; omega)]
    simp only [State.countAdvance, State.nextFrame, BitVec.add_assoc, Nat.add_comm a 1, BitVec.ofNat_add,
      BitVec.ofNat_eq_ofNat]

/-- All that the advances of a phase step can come to: each succeeds, and the remainder is stored as the phase; or they
end at the first that does not, in its way (R183). -/
theorem State.phaseLoop_cases (a p : Nat) (s : State) :
    (∃ u, s.advances a = .ok u ∧ s.phaseLoop a p = .ok (u.setPhase (p - Config.outRate * a))) ∨
    ∃ b v, b < a ∧ s.advances b = .ok v ∧
      ((∃ e u, v.advance = .fail e u ∧ s.phaseLoop a p = .fail e (p - Config.outRate * (b + 1)) u) ∨
        (v.advance = .unanswered ∧ s.phaseLoop a p = .unanswered) ∨
        (v.advance = .overrun ∧ s.phaseLoop a p = .overrun)) := by
  induction a generalizing s p with
  | zero => exact .inl ⟨s, rfl, rfl⟩
  | succ a ih =>
    rcases hs : s.advance with u | ⟨e, u⟩ | _ | _
    · have hp : s.phaseLoop (a + 1) p = u.phaseLoop a (p - Config.outRate) := by simp only [State.phaseLoop, hs]
      have hadv : ∀ n, s.advances (n + 1) = u.advances n := fun n => by simp only [State.advances, hs]
      have hsub : ∀ n, p - Config.outRate - Config.outRate * n = p - Config.outRate * (n + 1) := fun n => by
        rw [Nat.mul_succ, Nat.sub_sub, Nat.add_comm Config.outRate]
      rcases ih (p - Config.outRate) u with ⟨t, h1, h2⟩ | ⟨b, v, hb, h1, h2⟩
      · exact .inl ⟨t, (hadv a).trans h1, by rw [hp, h2, hsub]⟩
      · refine .inr ⟨b + 1, v, by omega, (hadv b).trans h1, ?_⟩
        rw [hp, ← hsub]
        exact h2
    · exact .inr ⟨0, s, by omega, rfl, .inl ⟨e, u, hs, by simp only [State.phaseLoop, hs]; simp⟩⟩
    · exact .inr ⟨0, s, by omega, rfl, .inr (.inl ⟨hs, by simp only [State.phaseLoop, hs]⟩)⟩
    · exact .inr ⟨0, s, by omega, rfl, .inr (.inr ⟨hs, by simp only [State.phaseLoop, hs]⟩)⟩

/-- `a` advances that succeed, with the phase stored at the end (R183). -/
theorem State.phaseLoop_ok {a p : Nat} {s t : State} (h : s.phaseLoop a p = .ok t) :
    s.UpsamplerOnly t ∧ t.phase = BitVec.ofNat 32 (p - Config.outRate * a) ∧
      t.advcnt = s.advcnt + BitVec.ofNat 32 a ∧ t.srcReqs ≤ s.srcReqs + 3 * a := by
  induction a generalizing p s with
  | zero =>
    cases h
    exact ⟨rfl, by simp, by simp, by simp⟩
  | succ a ih =>
    simp only [State.phaseLoop] at h
    split at h
    · rename_i u hu
      obtain ⟨h1, -, h2, h3⟩ := State.advance_ok hu
      obtain ⟨k1, k2, k3, k4⟩ := ih h
      refine ⟨h1.trans k1, ?_, ?_, by omega⟩
      · rw [k2, Nat.mul_succ, Nat.sub_sub, Nat.add_comm (Config.outRate * a)]
      · rw [k3, h2, BitVec.add_assoc, BitVec.ofNat_add, BitVec.add_comm 1]
        rfl
    · cases h
    · cases h
    · cases h

/-- The frame that `a` advances leave. -/
theorem State.phaseLoop_hasFrame {a p : Nat} {s t : State} (h : s.phaseLoop a p = .ok t)
    (hcf : s.par.chunkFrames ≤ 65535) (hch : s.chunk.length ≤ s.par.chunkFrames)
    (hlen : s.chunkLen.toNat ≤ s.chunk.length) (h0 : 0 < a ∨ s.chunkIdx.toNat < s.chunkLen.toNat) : t.HasFrame := by
  induction a generalizing p s with
  | zero =>
    cases h
    exact ⟨h0.resolve_left (by omega), hlen, hch⟩
  | succ a ih =>
    simp only [State.phaseLoop] at h
    split at h
    · rename_i u hu
      have hf := State.advance_hasFrame hu hcf hch hlen
      have hp : u.par = s.par := by rw [(State.advance_ok hu).1]
      exact ih h (hp ▸ hcf) hf.2.2 hf.2.1 (.inr hf.1)
    · cases h
    · cases h
    · cases h

/-- The advance that fails, after some that succeeded (R183, R244). -/
theorem State.phaseLoop_fail {a p q : Nat} {s t : State} {e : Cause} (h : s.phaseLoop a p = .fail e q t) :
    (e = .audioIo ∨ e = .emptySrc) ∧ s.UpsamplerOnly t ∧
      ∃ b, b < a ∧ q = p - Config.outRate * (b + 1) ∧ t.advcnt = s.advcnt + BitVec.ofNat 32 b ∧
        t.srcReqs ≤ s.srcReqs + 3 * (b + 1) := by
  induction a generalizing p s with
  | zero => cases h
  | succ a ih =>
    simp only [State.phaseLoop] at h
    split at h
    · rename_i u hu
      obtain ⟨h1, -, h2, h3⟩ := State.advance_ok hu
      obtain ⟨he, k1, b, hb, hq, k3, k4⟩ := ih h
      refine ⟨he, h1.trans k1, b + 1, by omega, ?_, ?_, by omega⟩
      · rw [hq, Nat.mul_succ Config.outRate (b + 1), Nat.sub_sub, Nat.add_comm (Config.outRate * (b + 1))]
      · rw [k3, h2, BitVec.add_assoc, BitVec.ofNat_add, BitVec.add_comm 1]
        rfl
    · rename_i e' u hu
      cases h
      obtain ⟨he, hro, hreq⟩ := State.advance_fail hu
      refine ⟨he, hro.toUpsamplerOnly, 0, by omega, by simp, ?_, by omega⟩
      rw [hro.1]; simp
    · cases h
    · cases h

/-- The buffers and the current chunk after a failed phase step are within their bounds. -/
theorem State.phaseLoop_fail_buffers {a p q : Nat} {s t : State} {e : Cause} (h : s.phaseLoop a p = .fail e q t)
    (hcf : s.par.chunkFrames ≤ 65535) (hch : s.chunk.length ≤ s.par.chunkFrames)
    (hlen : s.chunkLen.toNat ≤ s.chunk.length) (h0 : s.chunkLen = 0 ∨ s.chunkIdx.toNat < s.chunkLen.toNat) :
    t.chunk.length ≤ t.par.chunkFrames ∧ t.chunkLen.toNat ≤ t.chunk.length ∧
      (t.chunkLen = 0 ∨ t.chunkIdx.toNat < t.chunkLen.toNat) := by
  induction a generalizing p s with
  | zero => cases h
  | succ a ih =>
    simp only [State.phaseLoop] at h
    split at h
    · rename_i u hu
      have hf := State.advance_hasFrame hu hcf hch hlen
      have hp : u.par = s.par := by rw [(State.advance_ok hu).1]
      exact ih h (hp ▸ hcf) hf.2.2 hf.2.1 (.inr hf.1)
    · rename_i e' u hu
      cases h
      rw [(State.advance_fail hu).2.1.1]
      exact ⟨hch, hlen, h0⟩
    · cases h
    · cases h

end Sys2Proof.Machine
end

