-- ==== Sys2Proof/Laws/Baseband.lean ====
section
/-! SUPPORT. Everything the step of a `PROD` can do (44_baseband_commands.md R242 to R245), and the other meanings in
one equation each. -/

namespace Sys2Proof.Machine

theorem execNop_busy {s : State} (h : s.busy = true) : execNop s = .next s.complete := by simp [execNop, h]
theorem execNop_idle {s : State} (h : s.busy = false) : execNop s = .next (s.accept 0x00 0) := by
  simp [execNop, h, Instr.op]
theorem execHalt_busy {s : State} (h : s.busy = true) : execHalt s = .next (s.setMode .idle).complete := by
  simp [execHalt, h]
theorem execHalt_idle {s : State} (h : s.busy = false) : execHalt s = .next (s.accept 0x03 0) := by
  simp [execHalt, h, Instr.op]
theorem execInit_idle {s : State} (h : s.busy = false) : execInit s = .next (s.accept 0x01 0) := by
  simp [execInit, h, Instr.op]
theorem execInit_noRate {s : State} (h : s.busy = true) (hr : s.rate = 0) :
    execInit s = .next (s.raise .cfg).complete := by simp [execInit, h, hr]
theorem execInit_rate {s : State} (h : s.busy = true) (hr : s.rate ≠ 0) :
    execInit s = .next s.startRun.complete := by
  unfold execInit
  rw [if_pos h, if_neg hr]
theorem execTune_idle {s : State} (h : s.busy = false) : execTune s = .next (s.accept 0x04 0) := by
  simp [execTune, h, Instr.op]
theorem execTune_busy {s : State} (h : s.busy = true) : execTune s = .next s.tuneStep := by simp [execTune, h]
theorem execProd_busy {s : State} (n : Nat) (h : s.busy = true) : execProd n s = s.prodStep := by simp [execProd, h]
theorem execProd_idle {s : State} (n : Nat) (h : s.busy = false) :
    execProd n s = if s.mode = .running then .next (s.accept 0x02 (BitVec.ofNat 16 n)) else .next (s.raise .badState) := by
  simp [execProd, h, Instr.op]

/-- What a sample step pushes once its phase step has succeeded (R242). -/
theorem State.finishSample_spec (s : State) :
    ∃ y : Word, y = (s.insert s.currentSample).evaluate ∧
      s.finishSample =
        { s with
          dl := s.dl.set (dlIndex s.widx.toNat) s.currentSample
          widx := BitVec.ofNat 7 ((s.widx.toNat + 1) % 127)
          fifo := s.fifo ++ [y]
          smpcnt := s.smpcnt + 1
          prodRem := s.prodRem - 1
          busy := if s.prodRem - 1 = 0 then false else s.busy
          curOp := if s.prodRem - 1 = 0 then 0 else s.curOp } := by
  refine ⟨_, rfl, ?_⟩
  by_cases h : s.prodRem - 1 = 0
  · have e : s.finishSample = (((s.insert s.currentSample).push (s.insert s.currentSample).evaluate).countSample).complete :=
      if_pos h
    rw [e, if_pos h, if_pos h, h]
    rfl
  · have e : s.finishSample = ((s.insert s.currentSample).push (s.insert s.currentSample).evaluate).countSample :=
      if_neg h
    rw [e, if_neg h, if_neg h]
    rfl

/-- Everything the step of a `PROD` can do when it has a next state. -/
theorem State.prodStep_next {s t : State} (h : s.prodStep = .next t) :
    (s.prodRem = 0 ∧ t = s.complete) ∨
    (s.prodRem ≠ 0 ∧ t = s) ∨
    (s.prodRem ≠ 0 ∧ s.fifo.length < s.par.outDepth ∧ ∃ u, s.phaseStep = .ok u ∧ t = u.finishSample) ∨
    (s.prodRem ≠ 0 ∧ s.fifo.length < s.par.outDepth ∧
      ∃ e p u, s.phaseStep = .fail e p u ∧ t = u.failSample e p) := by
  unfold State.prodStep at h
  split at h
  · cases h; exact .inl ⟨‹_›, rfl⟩
  · split at h
    · split at h <;> cases h
      · exact .inr (.inr (.inl ⟨‹_›, ‹_›, _, ‹_›, rfl⟩))
      · exact .inr (.inr (.inr ⟨‹_›, ‹_›, _, _, _, ‹_›, rfl⟩))
      · exact .inr (.inl ⟨‹_›, rfl⟩)
    · cases h; exact .inr (.inl ⟨‹_›, rfl⟩)

end Sys2Proof.Machine
end

