-- ==== Sys2Proof/Laws/Float.lean ====
section
/-! SUPPORT. What rounding a count of units does and when it overflows, what a word built from a sign and bits 30:0 holds,
and the two operations on finite operands (43_fir.md R211 to R214). -/

namespace Sys2Proof.Machine

/-! ## Rounding to an integer -/

/-- The rounded quotient is within half a unit of the exact one. -/
theorem roundShift_near (n k : Nat) :
    2 * n ≤ 2 * (roundShift n k * 2 ^ k) + 2 ^ k ∧ 2 * (roundShift n k * 2 ^ k) ≤ 2 * n + 2 ^ k := by
  have hdm := Nat.div_add_mod n (2 ^ k)
  have hlt := Nat.mod_lt n (Nat.two_pow_pos k)
  rw [Nat.mul_comm] at hdm
  unfold roundShift
  dsimp only
  generalize n / 2 ^ k = q at *
  generalize n % 2 ^ k = r at *
  generalize 2 ^ k = m at *
  have hs : (q + 1) * m = q * m + m := by ring
  split
  · omega
  · split
    · omega
    · rcases Nat.mod_two_eq_zero_or_one q with h | h <;> rw [h] <;> first | omega | (rw [Nat.add_zero]; omega)

/-- A tie goes to the even quotient. -/
theorem roundShift_tie {n k : Nat} (h : 2 * (n % 2 ^ k) = 2 ^ k) : roundShift n k % 2 = 0 := by
  unfold roundShift
  dsimp only
  rw [if_neg (by omega), if_neg (by omega)]
  omega

/-- An exact quotient is kept. -/
theorem roundShift_exact (q k : Nat) : roundShift (q * 2 ^ k) k = q := by
  have hp := Nat.two_pow_pos k
  unfold roundShift
  simp only [Nat.mul_mod_left, Nat.mul_div_cancel _ hp]
  rw [if_pos (by omega)]

theorem roundShift_zero (n : Nat) : roundShift n 0 = n := by
  simpa using roundShift_exact n 0

/-- A quotient whose dividend has `k + 24` bits rounds to 24 significant bits, or to the next power of two. -/
theorem roundShift_bounds {n k : Nat} (h : 2 ^ (k + 23) ≤ n) (h' : n < 2 ^ (k + 24)) :
    2 ^ 23 ≤ roundShift n k ∧ roundShift n k ≤ 2 ^ 24 := by
  have hnear := roundShift_near n k
  have hp := Nat.two_pow_pos k
  rw [Nat.pow_add] at h h'
  generalize 2 ^ k = m at *
  generalize roundShift n k = r at *
  constructor <;> by_contra hc <;> nlinarith

/-- Such a quotient rounds up to the power of two from half a unit below it (R212: a tie goes to the even one). -/
theorem roundShift_carry {n k : Nat} (h' : n < 2 ^ (k + 25)) :
    roundShift n (k + 1) = 2 ^ 24 ↔ (2 ^ 25 - 1) * 2 ^ k ≤ n := by
  have hdm := Nat.div_add_mod n (2 ^ (k + 1))
  have hlt := Nat.mod_lt n (Nat.two_pow_pos (k + 1))
  rw [Nat.mul_comm] at hdm
  have hp := Nat.two_pow_pos k
  unfold roundShift
  rw [Nat.pow_add] at h'
  dsimp only
  rw [Nat.pow_succ] at *
  generalize n / (2 ^ k * 2) = q at *
  generalize n % (2 ^ k * 2) = r at *
  generalize 2 ^ k = m at *
  have hq : q < 2 ^ 24 := by by_contra hc; nlinarith
  have hq' : q = 2 ^ 24 - 1 ∨ q + 1 < 2 ^ 24 := by omega
  rcases hq' with rfl | hq'
  · split_ifs <;> omega
  · have : ¬ (2 ^ 25 - 1) * m ≤ n := by
      have : (q + 2) * (m * 2) ≤ 2 ^ 24 * (m * 2) := Nat.mul_le_mul_right _ (by omega)
      have hs : (q + 2) * (m * 2) = q * (m * 2) + 4 * m := by ring
      omega
    split_ifs <;> omega

/-- Rounding overflows exactly from the largest finite number and half a unit of its last place (R212). -/
theorem roundMagnitude_overflow (n g : Nat) :
    roundMagnitude n g = infinityBits ↔ (2 ^ 25 - 1) * 2 ^ (252 + g) ≤ n := by
  have hmin : roundMagnitude n g = infinityBits ↔
      infinityBits ≤ (max g (Nat.log2 n - 23) - g) * 2 ^ 23 + roundShift n (max g (Nat.log2 n - 23)) := by
    unfold roundMagnitude
    exact min_eq_right_iff
  rw [hmin]
  clear hmin
  have hinf : infinityBits = 255 * 2 ^ 23 := rfl
  have hlog : n < 2 ^ (Nat.log2 n + 1) := Nat.lt_log2_self
  rcases Nat.le_total (Nat.log2 n) (g + 23) with hs | hs
  · -- at most 24 bits: no bit above the exponent's first is reached
    rw [Nat.max_eq_left (by omega), hinf]
    have hn : n < 2 ^ (g + 24) := lt_of_lt_of_le hlog (Nat.pow_le_pow_right (by omega) (by omega))
    have h1 : roundShift n g ≤ 2 ^ 24 := by
      have hnear := (roundShift_near n g).2
      have hp := Nat.two_pow_pos g
      rw [Nat.pow_add] at hn
      generalize 2 ^ g = m at *
      by_contra hc
      nlinarith
    have h2 : 2 ^ (g + 24) ≤ (2 ^ 25 - 1) * 2 ^ (252 + g) := by
      rw [show 252 + g = (g + 24) + 228 by omega, Nat.pow_add 2 (g + 24)]
      omega
    omega
  · obtain ⟨k, hk⟩ : ∃ k, Nat.log2 n = k + 23 := ⟨Nat.log2 n - 23, by omega⟩
    have hkg : g ≤ k := by omega
    have hlow : 2 ^ (k + 23) ≤ n := hk ▸ Nat.log2_self_le (by rintro rfl; simp at hk)
    rw [hk, show k + 23 + 1 = k + 24 from rfl] at hlog
    rw [hk]
    rw [Nat.max_eq_right (by omega), Nat.add_sub_cancel, hinf]
    have hb := roundShift_bounds hlow hlog
    rcases Nat.lt_trichotomy (k - g) 253 with hd | hd | hd
    · have h2 : 2 ^ (k + 24) ≤ (2 ^ 25 - 1) * 2 ^ (252 + g) := by
        have : 2 ^ (k + 24) ≤ 2 ^ (252 + g + 24) := Nat.pow_le_pow_right (by omega) (by omega)
        rw [Nat.pow_add 2 (252 + g)] at this
        omega
      omega
    · obtain rfl : k = 252 + g + 1 := by omega
      rw [← roundShift_carry (lt_of_lt_of_le hlog (Nat.pow_le_pow_right (by omega) (by omega)))]
      omega
    · have h2 : (2 ^ 25 - 1) * 2 ^ (252 + g) ≤ 2 ^ (k + 23) := by
        have : 2 ^ (252 + g + 25) ≤ 2 ^ (k + 23) := Nat.pow_le_pow_right (by omega) (by omega)
        rw [Nat.pow_add 2 (252 + g)] at this
        omega
      have : 254 * 2 ^ 23 ≤ (k - g) * 2 ^ 23 := Nat.mul_le_mul_right _ (by omega)
      omega

/-! ## Words from a sign and bits 30:0 -/

theorem withSign_toNat {b : Bool} {bits : Nat} (h : bits < 2 ^ 31) :
    (withSign b bits).toNat = if b then 2 ^ 31 + bits else bits := by
  unfold withSign
  rw [BitVec.toNat_ofNat]
  cases b <;> simp only [if_true, Bool.false_eq_true, if_false] <;> omega

theorem expField_eq (w : Word) : expField w = w.toNat / 2 ^ 23 % 2 ^ 8 := by
  simp [expField, BitVec.extractLsb'_toNat, Nat.shiftRight_eq_div_pow]

theorem fracField_eq (w : Word) : fracField w = w.toNat % 2 ^ 23 := by
  simp [fracField, BitVec.extractLsb'_toNat]

theorem signBit_eq (w : Word) : signBit w = decide (2 ^ 31 ≤ w.toNat) := by
  have hw := w.isLt
  unfold signBit
  rw [BitVec.getLsbD, Nat.testBit_eq_decide_div_mod_eq]
  congr 1
  apply propext
  omega

theorem withSign_signBit {b : Bool} {bits : Nat} (h : bits < 2 ^ 31) : signBit (withSign b bits) = b := by
  rw [signBit_eq, withSign_toNat h]
  cases b
  · simp; omega
  · simp

theorem withSign_expField {b : Bool} {bits : Nat} (h : bits < 2 ^ 31) :
    expField (withSign b bits) = bits / 2 ^ 23 := by
  rw [expField_eq, withSign_toNat h]
  cases b <;> simp only [if_true, Bool.false_eq_true, if_false] <;> omega

theorem withSign_fracField {b : Bool} {bits : Nat} (h : bits < 2 ^ 31) :
    fracField (withSign b bits) = bits % 2 ^ 23 := by
  rw [fracField_eq, withSign_toNat h]
  split <;> omega

/-! ## Magnitudes -/

theorem expField_lt (w : Word) : expField w < 256 := by
  rw [expField_eq]
  omega

theorem fracField_lt (w : Word) : fracField w < 2 ^ 23 := by
  rw [fracField_eq]
  omega

theorem magnitude_subnormal {w : Word} (h : expField w = 0) : magnitude w = fracField w := if_pos h

theorem magnitude_normal {w : Word} (h : expField w ≠ 0) :
    magnitude w = (2 ^ 23 + fracField w) * 2 ^ (expField w - 1) := if_neg h

theorem value_natAbs (w : Word) : (value w).natAbs = magnitude w := by
  unfold value
  split <;> simp

/-- A result is at most infinity (R212). -/
theorem roundMagnitude_le (n g : Nat) : roundMagnitude n g ≤ infinityBits := Nat.min_le_right _ _

/-! ## The two operations on finite operands -/

theorem isFinite_cases {w : Word} (h : isFinite w = true) : isNaN w = false ∧ isInf w = false := by
  have he : expField w ≠ 255 := by simpa [isFinite] using h
  simp [isNaN, isInf, he]

/-- A word built from bits 30:0 is finite where these lie below those of infinity. -/
theorem withSign_isFinite {b : Bool} {bits : Nat} (h : bits < 2 ^ 31) :
    isFinite (withSign b bits) = true ↔ bits < infinityBits := by
  simp only [isFinite, withSign_expField h, bne_iff_ne, infinityBits]
  omega

/-- The sum of finite words: their exact sum, rounded once; 0 with the sign both have, or `+0.0` (R212, R213). -/
theorem fadd32_finite {a b : Word} (ha : isFinite a = true) (hb : isFinite b = true) :
    fadd32 a b =
      if value a + value b = 0 then withSign (signBit a && signBit b) 0
      else withSign (decide (value a + value b < 0)) (roundMagnitude (value a + value b).natAbs 0) := by
  simp only [fadd32, isFinite_cases ha, isFinite_cases hb, Bool.or_false, Bool.false_eq_true, if_false]

/-- The product of finite words: their exact product, rounded once, with the exclusive-or of the signs (R212, R214). -/
theorem fmul32_finite {a b : Word} (ha : isFinite a = true) (hb : isFinite b = true) :
    fmul32 a b = withSign (signBit a != signBit b) (roundMagnitude (magnitude a * magnitude b) 149) := by
  simp only [fmul32, isFinite_cases ha, isFinite_cases hb, Bool.or_false, Bool.false_eq_true, if_false]

end Sys2Proof.Machine
end

