-- ==== Sys2Proof/Laws/HostPort.lean ====
section
/-! SUPPORT. The register map read backwards, and everything a host access, a turn and a step can do
(20_memory.md R87, R88; 40_sequencer.md R131, R137). -/

namespace Sys2Proof.Machine

/-! ## The register map -/

theorem regAt_coef {off : Nat} (h : 0x100 ≤ off ∧ off ≤ 0x1FC) :
    regAt off = .coef ⟨(off - 0x100) / 4, by omega⟩ := by
  unfold regAt
  rw [dif_pos h]

theorem regAt_dl {off : Nat} (h : 0x200 ≤ off ∧ off ≤ 0x3F8) :
    regAt off = .dl ⟨(off - 0x200) / 4, by omega⟩ := by
  unfold regAt
  rw [dif_neg (by omega), dif_pos h]

theorem regAt_table {off : Nat} (h : ¬ (0x100 ≤ off ∧ off ≤ 0x1FC)) (h' : ¬ (0x200 ≤ off ∧ off ≤ 0x3F8)) :
    regAt off = (regTable.lookup off).getD .reserved := by
  unfold regAt
  rw [dif_neg h, dif_neg h']

/-- The table holds a register at one offset only. -/
theorem regTable_lookup {off : Nat} {r : Reg} (h : regTable.lookup off = some r) : (off, r) ∈ regTable := by
  have gen : ∀ l : List (Nat × Reg), l.lookup off = some r → (off, r) ∈ l := by
    intro l
    induction l with
    | nil => simp
    | cons p l ih =>
      obtain ⟨k, q⟩ := p
      intro hl
      rw [List.lookup_cons] at hl
      split at hl
      · rename_i hk
        simp only [beq_iff_eq] at hk
        simp_all
      · exact List.mem_cons_of_mem _ (ih hl)
  exact gen _ h

/-- Which offsets hold a register of the table. -/
theorem regAt_eq {off : Nat} {r : Reg} (h : regAt off = r) (hc : ∀ i, r ≠ .coef i) (hd : ∀ j, r ≠ .dl j)
    (hr : r ≠ .reserved) : (off, r) ∈ regTable := by
  by_cases h1 : 0x100 ≤ off ∧ off ≤ 0x1FC
  · rw [regAt_coef h1] at h
    exact absurd h.symm (hc _)
  by_cases h2 : 0x200 ≤ off ∧ off ≤ 0x3F8
  · rw [regAt_dl h2] at h
    exact absurd h.symm (hd _)
  rw [regAt_table h1 h2] at h
  apply regTable_lookup
  cases hl : regTable.lookup off with
  | none => rw [hl] at h; exact absurd h.symm hr
  | some q => rw [hl] at h; exact congrArg some h

theorem regAt_eq_cmd {off : Nat} : regAt off = .cmd ↔ off = 0x014 := by
  refine ⟨fun h => ?_, fun h => by subst h; decide⟩
  have := regAt_eq h (by simp) (by simp) (by simp)
  simpa [regTable] using this

theorem regAt_eq_ctrl {off : Nat} : regAt off = .ctrl ↔ off = 0x008 := by
  refine ⟨fun h => ?_, fun h => by subst h; decide⟩
  have := regAt_eq h (by simp) (by simp) (by simp)
  simpa [regTable] using this

theorem regAt_eq_err {off : Nat} : regAt off = .err ↔ off = 0x010 := by
  refine ⟨fun h => ?_, fun h => by subst h; decide⟩
  have := regAt_eq h (by simp) (by simp) (by simp)
  simpa [regTable] using this

theorem regAt_eq_outData {off : Nat} : regAt off = .outData ↔ off = 0x01C := by
  refine ⟨fun h => ?_, fun h => by subst h; decide⟩
  have := regAt_eq h (by simp) (by simp) (by simp)
  simpa [regTable] using this

/-! ## Accesses -/

theorem accessChecked_next {off width : Nat} {o : Out} {t : State} (h : accessChecked off width o = .next t) :
    width = 4 ∧ off % 4 = 0 ∧ off < 0x400 ∧ o = .next t := by
  unfold accessChecked at h
  split at h
  · cases h
  · split at h
    · cases h
    · rename_i h1 h2
      exact ⟨by omega, by omega, by omega, h⟩

theorem accessChecked_pass {off : Nat} {o : Out} (h : off % 4 = 0) (h' : off < 0x400) :
    accessChecked off 4 o = o := by
  unfold accessChecked
  rw [if_neg (by omega), if_neg (by omega)]

/-- Everything a host write can do when it has a next state (R87). -/
theorem State.hostWrite_next {s t : State} {off : Nat} {v : Word} (h : s.hostWrite off v = .next t) :
    (off = 0x008 ∧ v.getLsbD 31 = true ∧ t = s.resetBlock) ∨
    (off = 0x010 ∧ t = s.clearErr (v.extractLsb' 0 9)) ∨
    (off ≠ 0x010 ∧ ∃ e, t = s.raise e) ∨
    (off = 0x014 ∧ s.busy = false ∧ ∃ i, decode v = .command i ∧ exec i s = .next t) ∨
    (off ≠ 0x010 ∧ s.busy = false ∧ s.mode ≠ .running ∧
      t = { s with stereo := t.stereo, rate := t.rate, coef := t.coef }) ∨
    (off ≠ 0x010 ∧ s.busy = false ∧
      t = { s with fc := t.fc, dev := t.dev, fref := t.fref, kovr := t.kovr }) := by
  unfold State.hostWrite at h
  split at h
  · rename_i h1
    cases h
    exact .inl ⟨regAt_eq_ctrl.mp h1.1, h1.2, rfl⟩
  split at h
  · rename_i h1
    cases h
    exact .inr (.inl ⟨regAt_eq_err.mp h1, rfl⟩)
  rename_i h1
  have hne : off ≠ 0x010 := fun hk => h1 (regAt_eq_err.mpr hk)
  split at h
  · cases h
    exact .inr (.inr (.inl ⟨hne, _, rfl⟩))
  rename_i hb
  have hb : s.busy = false := by simpa using hb
  generalize hreg : regAt off = r at h
  have locked : ∀ f : State → State, t = s.locking f →
      (∀ u : State, f u = { u with stereo := (f u).stereo, rate := (f u).rate, coef := (f u).coef }) →
      (off ≠ 0x010 ∧ ∃ e, t = s.raise e) ∨
      (off ≠ 0x010 ∧ s.busy = false ∧ s.mode ≠ .running ∧
        t = { s with stereo := t.stereo, rate := t.rate, coef := t.coef }) := by
    intro f ht hf
    unfold State.locking at ht
    split at ht
    · exact .inl ⟨hne, _, ht⟩
    · exact .inr ⟨hne, hb, ‹_›, by rw [ht]; exact hf s⟩
  cases r <;> simp only [State.writeReg] at h
  case cmd =>
    unfold State.issue at h
    split at h
    · exact .inr (.inr (.inr (.inl ⟨regAt_eq_cmd.mp hreg, hb, _, ‹_›, h⟩)))
    · cases h; exact .inr (.inr (.inl ⟨hne, _, rfl⟩))
  case ctrl | rate | coef =>
    cases h
    rcases locked _ rfl (fun u => rfl) with h2 | h2
    · exact .inr (.inr (.inl h2))
    · exact .inr (.inr (.inr (.inr (.inl h2))))
  all_goals
    cases h
    exact .inr (.inr (.inr (.inr (.inr ⟨hne, hb, rfl⟩))))

/-- Everything a host read can do (R88). -/
theorem State.hostRead_spec (s : State) (off : Nat) :
    (off ≠ 0x01C ∧ s.hostRead off = s.setRdata (s.readReg (regAt off))) ∨
    (off = 0x01C ∧ s.hostRead off = s.pop.2.setRdata s.pop.1) := by
  unfold State.hostRead
  split
  · exact .inr ⟨regAt_eq_outData.mp ‹_›, rfl⟩
  · rename_i hne
    exact .inl ⟨fun hk => hne (regAt_eq_outData.mpr hk), rfl⟩

/-! ## Turns and steps -/

/-- The state with other turns to come. -/
def State.withAgenda (ts : List Turn) (s : State) : State := { s with agenda := ts }


end Sys2Proof.Machine
end

