-- ==== Sys2Proof/Laws/Memory.lean ====
section
/-! SUPPORT. Every memory operation keeps `Memory.wf` (10_state.md R64), and what a memory reads as after a write
(10_state.md R58, R59, R60, R61). -/

namespace Sys2Proof.Machine

/-! ## The memories stay within their bounds -/

theorem reset_wf : Memory.wf State.reset := by decide

theorem State.resetBlock_wf (s : State) : Memory.wf s.resetBlock := ⟨by simp, by simp, by simp⟩

theorem State.push_wf {s : State} {w : Word} (h : Memory.wf s) (hf : s.fifo.length < s.par.outDepth) :
    Memory.wf (s.push w) := by
  refine ⟨?_, h.2.1, h.2.2⟩
  simp only [State.push_fifo, State.push_par, List.length_append, List.length_singleton]
  omega

theorem State.pop_wf {s : State} (h : Memory.wf s) : Memory.wf s.pop.2 := by
  unfold State.pop
  split
  · exact h
  · rename_i w rest hq
    refine ⟨?_, h.2.1, h.2.2⟩
    have := h.1
    rw [hq, List.length_cons] at this
    exact Nat.le_of_succ_le this

theorem State.setCoef_wf {s : State} {i : Fin 64} {v : Word} (h : Memory.wf s) : Memory.wf (s.setCoef i v) := h

theorem State.insert_wf {s : State} {w : Word} (h : Memory.wf s) : Memory.wf (s.insert w) := h

theorem State.startRun_wf {s : State} (h : Memory.wf s) : Memory.wf s.startRun := ⟨by simp, h.2.1, by simp⟩

/-- A refill that brought at most the frames asked for (42_upsampler.md R185). -/
theorem State.storeChunk_wf {s : State} {fs : List Frame} (h : Memory.wf s) (hl : fs.length ≤ s.par.chunkFrames)
    (hp : s.par.chunkFrames ≤ 65535) : Memory.wf (s.storeChunk fs) := by
  obtain ⟨h1, h2, h3⟩ := h
  have hm : fs.length % 65536 = fs.length := Nat.mod_eq_of_lt (by omega)
  refine ⟨h1, ?_, ?_⟩
  · simp only [State.storeChunk_chunk, State.storeChunk_par, List.length_append, List.length_drop]
    omega
  · simp only [State.storeChunk_chunk, State.storeChunk_chunkLen, List.length_append, BitVec.toNat_ofNat,
      Nat.reducePow, hm]
    omega

/-! ## Reads after writes -/

theorem State.coefAt_setCoef (s : State) (i : Fin 64) (v : Word) : (s.setCoef i v).coefAt i = v := by
  simp [State.coefAt]

theorem State.coefAt_setCoef_ne {s : State} {i j : Fin 64} {v : Word} (h : i ≠ j) :
    (s.setCoef i v).coefAt j = s.coefAt j := by
  have hne : i.val ≠ j.val := fun hk => h (Fin.ext hk)
  simp [State.coefAt, Vector.getElem_set_ne, hne]

/-- An insert leaves every delay-line entry but the one at the write index alone (43_fir.md R215). -/
theorem State.dlAt_insert_ne {s : State} {w : Word} {j : Int} (h : dlIndex s.widx.toNat ≠ dlIndex j) :
    (s.insert w).dlAt j = s.dlAt j := by
  have hne : (dlIndex s.widx.toNat).val ≠ (dlIndex j).val := fun hk => h (Fin.ext hk)
  simp [State.dlAt, Vector.getElem_set_ne, hne]

/-- The frames a refill brought are the first entries of the chunk buffer (42_upsampler.md R187). -/
theorem State.chunkAt_storeChunk {s : State} {fs : List Frame} {j : Nat} (h : j < fs.length) :
    (s.storeChunk fs).chunkAt j = fs[j] := by
  simp [State.chunkAt, List.getD, List.getElem?_append_left h, h]

/-- What was pushed comes out last (44_baseband_commands.md R246). -/
theorem State.pop_push {s : State} {w v : Word} {rest : List Word} (h : s.fifo = w :: rest) :
    (s.push v).pop.1 = w ∧ (s.push v).pop.2.fifo = rest ++ [v] := by
  simp [State.pop, h]

end Sys2Proof.Machine
end

