-- ==== Sys2Proof/Laws/PerInstr.lean ====
section
/-! SUPPORT. A family of facts about each command as syntax: its word selects its own row of the opcode map, with its
opcode in bits 31:24 and nothing in the reserved field (30_encoding.md R110, R112). -/

namespace Sys2Proof.Laws.EncodeMatch

/-- A well-formed command's word selects its own row, and its fields are the row's. -/
def Statement (i : Instr) : Prop :=
  i.wellFormed = true →
    encode i &&& i.mask = i.legalWord ∧ opField (encode i) = i.op ∧ rsvField (encode i) = 0 ∧
      (i.mask = 0xFFFFFFFF → nField (encode i) = 0)

theorem nop : Statement .nop := fun _ => by decide
theorem init : Statement .init := fun _ => by decide
theorem halt : Statement .halt := fun _ => by decide
theorem tune : Statement .tune := fun _ => by decide

/-- The word of a `PROD` as its three fields. -/
theorem encode_prod {n : Nat} (h : n ≤ 65535) :
    encode (.prod n) = (0x02 : BitVec 8) ++ (0 : BitVec 8) ++ BitVec.ofNat 16 n := by
  apply BitVec.eq_of_toNat_eq
  have hn : n % 2 ^ 16 = n := Nat.mod_eq_of_lt (by omega)
  have hn' : n % 2 ^ 32 = n := Nat.mod_eq_of_lt (by omega)
  simp only [encode, BitVec.toNat_or, BitVec.toNat_append, BitVec.toNat_ofNat, hn, hn']
  rfl

theorem prod (n : Nat) : Statement (.prod n) := by
  intro h
  have hn : n ≤ 65535 := by simpa [Instr.wellFormed] using h
  rw [encode_prod hn]
  generalize BitVec.ofNat 16 n = m
  refine ⟨?_, ?_, ?_, fun hk => absurd hk (by simp [Instr.mask])⟩ <;>
    (apply BitVec.eq_of_getLsbD_eq; intro i hi)
  · simp only [Instr.mask, Instr.legalWord, BitVec.getLsbD_and, BitVec.getLsbD_append]
    interval_cases i <;> simp
  · simp only [opField, Instr.op, BitVec.getLsbD_extractLsb', BitVec.getLsbD_append]
    interval_cases i <;> simp
  · simp only [rsvField, BitVec.getLsbD_extractLsb', BitVec.getLsbD_append]
    interval_cases i <;> simp

end Sys2Proof.Laws.EncodeMatch
end

