-- ==== Sys2Proof/Laws/Pll.lean ====
section
/-! SUPPORT. What the divider search finds (41_pll_selector.md R154, R160) and what the step of `TUNE` touches. -/

namespace Sys2Proof.Machine

theorem mem_candidates {k : Nat} : k ∈ candidates ↔ 2 ≤ k ∧ k < 50 := by
  simp only [candidates, Config.kMin, Config.kEnd, List.mem_range'_1]

theorem candidates_sorted : candidates.Pairwise (· < ·) := by decide

/-- What a search over some candidates has found: the start value if none of them was valid, else the first of the
valid ones with the highest figure. -/
def TuneIn.Found (t : TuneIn) (ks : List Nat) (best : Nat × Int) : Prop :=
  (best = (0, -1) ∧ ∀ k ∈ ks, t.valid k = false) ∨
  (best.1 ∈ ks ∧ t.valid best.1 = true ∧ best.2 = (t.figure best.1 : Int) ∧
    (∀ k ∈ ks, t.valid k = true → t.figure k ≤ t.figure best.1) ∧
    ∀ k ∈ ks, k < best.1 → t.valid k = true → t.figure k < t.figure best.1)

theorem TuneIn.consider_found (t : TuneIn) {ks : List Nat} {best : Nat × Int} {k : Nat} (h : t.Found ks best)
    (hk : ∀ j ∈ ks, j < k) : t.Found (ks ++ [k]) (t.consider best k) := by
  unfold TuneIn.consider
  by_cases hv : t.valid k = true
  · rcases h with ⟨rfl, hno⟩ | ⟨hm, hbv, hbf, hle, hlt⟩
    · rw [if_pos (by simp [hv]; omega)]
      refine .inr ⟨by simp, hv, rfl, ?_, ?_⟩
      · intro j hj hjv
        rcases List.mem_append.mp hj with hj | hj
        · simp [hno j hj] at hjv
        · simp_all
      · intro j hj hjk hjv
        rcases List.mem_append.mp hj with hj | hj
        · simp [hno j hj] at hjv
        · simp only [List.mem_singleton] at hj; omega
    · by_cases hf : t.figure best.1 < t.figure k
      · rw [if_pos (by simp [hv, hbf, hf])]
        refine .inr ⟨by simp, hv, rfl, ?_, ?_⟩
        · intro j hj hjv
          rcases List.mem_append.mp hj with hj | hj
          · exact (hle j hj hjv).trans hf.le
          · simp_all
        · intro j hj hjk hjv
          rcases List.mem_append.mp hj with hj | hj
          · exact (hle j hj hjv).trans_lt hf
          · simp only [List.mem_singleton] at hj; omega
      · rw [if_neg (by simp [hbf, hf])]
        refine .inr ⟨by simp [hm], hbv, hbf, ?_, ?_⟩
        · intro j hj hjv
          rcases List.mem_append.mp hj with hj | hj
          · exact hle j hj hjv
          · simp only [List.mem_singleton] at hj; subst hj; omega
        · intro j hj hjk hjv
          rcases List.mem_append.mp hj with hj | hj
          · exact hlt j hj hjk hjv
          · simp only [List.mem_singleton] at hj; subst hj
            exact absurd hjk (Nat.not_lt.mpr (hk _ hm).le)
  · rw [if_neg (by simp [hv])]
    have hv : t.valid k = false := by simpa using hv
    rcases h with ⟨rfl, hno⟩ | ⟨hm, hbv, hbf, hle, hlt⟩
    · refine .inl ⟨rfl, fun j hj => ?_⟩
      rcases List.mem_append.mp hj with hj | hj
      · exact hno j hj
      · simp_all
    · refine .inr ⟨by simp [hm], hbv, hbf, ?_, ?_⟩
      · intro j hj hjv
        rcases List.mem_append.mp hj with hj | hj
        · exact hle j hj hjv
        · simp_all
      · intro j hj hjk hjv
        rcases List.mem_append.mp hj with hj | hj
        · exact hlt j hj hjk hjv
        · simp_all

theorem TuneIn.foldl_found (t : TuneIn) (ks : List Nat) :
    ∀ (done : List Nat) (best : Nat × Int), (done ++ ks).Pairwise (· < ·) → t.Found done best →
      t.Found (done ++ ks) (ks.foldl t.consider best) := by
  induction ks with
  | nil => intro done best _ h; simpa using h
  | cons k ks ih =>
    intro done best hs h
    have hs' : ((done ++ [k]) ++ ks).Pairwise (· < ·) := by simpa using hs
    have hk : ∀ j ∈ done, j < k := fun j hj =>
      (List.pairwise_append.mp hs).2.2 j hj k (by simp)
    simpa using ih (done ++ [k]) _ hs' (t.consider_found h hk)

/-- The search finds the first of the best (R160), or nothing. -/
theorem TuneIn.search_found (t : TuneIn) : t.Found candidates t.search := by
  have := t.foldl_found candidates [] (0, -1) (by simpa using candidates_sorted) (.inl ⟨rfl, by simp⟩)
  simpa [TuneIn.search] using this

/-- The figure of merit is at most 3 (R159). -/
theorem TuneIn.figure_le (t : TuneIn) (k : Nat) : t.figure k ≤ 3 := by
  unfold TuneIn.figure bandPoints TuneIn.fractionPoint
  dsimp only
  split <;> split <;> split <;> omega

/-- The step of `TUNE` touches nothing but its results, `ERR` and the sequencer triple (R150). -/
theorem State.tuneStep_frame (s : State) :
    s.tuneStep =
      { s.complete with
        k := s.tuneStep.k
        fom := s.tuneStep.fom
        mint := s.tuneStep.mint
        mfrac := s.tuneStep.mfrac
        tstat := s.tuneStep.tstat
        err := s.tuneStep.err } := by
  unfold State.tuneStep
  dsimp only
  split
  · rfl
  · split
    · rfl
    · split <;> rfl

/-- The errors a `TUNE` can raise (R151). -/
theorem State.tuneStep_err (s : State) :
    s.tuneStep.err = s.err ∨ s.tuneStep.err = s.err ||| Cause.cfg.bit ∨ s.tuneStep.err = s.err ||| Cause.noDiv.bit := by
  unfold State.tuneStep
  dsimp only
  split
  · exact .inr (.inl rfl)
  · split
    · exact .inl rfl
    · split
      · exact .inr (.inr rfl)
      · exact .inl rfl

end Sys2Proof.Machine
end

