-- ==== Sys2Proof/Laws/Step.lean ====
section
/-! SUPPORT. Everything a step can do (20_memory.md R87, R88, R92; 40_sequencer.md R131, R133), as one case each. -/

namespace Sys2Proof.Machine

/-- What a step from `s` to `t` was. -/
inductive StepCase (s t : State) : Prop where
  /-- A turn was used up, or there was none, and nothing else happened. -/
  | idle (ts : List Turn) (ht : t = s.withAgenda ts)
  /-- The sequencer's step of the executing command. -/
  | seq (i : Instr) (ts : List Turn) (hn : s.seqNext = true) (hc : s.command? = some i)
      (he : exec i (s.withAgenda ts) = .next t)
  /-- The issue of a command. -/
  | issue (i : Instr) (v : Word) (ts : List Turn) (ha : s.agenda = .write 0x014 4 v :: ts) (hb : s.busy = false)
      (hd : decode v = .command i) (he : exec i (s.withAgenda ts) = .next t)
  /-- A reset. -/
  | reset (ts : List Turn) (hr : s.resetsNext = true) (ht : t = (s.withAgenda ts).resetBlock)
  /-- The `ERR` bit-clear. -/
  | clearErr (v : Word) (ts : List Turn) (ha : s.agenda = .write 0x010 4 v :: ts)
      (ht : t = (s.withAgenda ts).clearErr (v.extractLsb' 0 9))
  /-- A write that only raises an error. -/
  | raise (e : Cause) (ts : List Turn) (ht : t = (s.withAgenda ts).raise e)
  /-- A write of configuration that is not locked. -/
  | config (ts : List Turn) (hb : s.busy = false) (hm : s.mode ≠ .running)
      (ht : t = { s.withAgenda ts with stereo := t.stereo, rate := t.rate, coef := t.coef })
  /-- A write of an input of `TUNE`. -/
  | inputs (ts : List Turn) (hb : s.busy = false)
      (ht : t = { s.withAgenda ts with fc := t.fc, dev := t.dev, fref := t.fref, kovr := t.kovr })
  /-- A read that only returns a value. -/
  | read (off : Nat) (ts : List Turn) (ha : s.agenda = .read off 4 :: ts) (ht : t = (s.withAgenda ts).setRdata t.rdata)
  /-- A read of `OUT_DATA`. -/
  | pop (ts : List Turn) (ha : s.agenda = .read 0x01C 4 :: ts)
      (ht : t = (s.withAgenda ts).pop.2.setRdata (s.withAgenda ts).pop.1)
  /-- The host attached a source. -/
  | attach (src : Source) (ts : List Turn) (ha : s.agenda = .attach src :: ts)
      (ht : t = (s.withAgenda ts).setSrc src)

/-- The sequencer's turn, when it has a next state. -/
theorem State.seqTurn_next {s t : State} (h : s.seqTurn = .next t) :
    (s.busy = false ∧ t = s) ∨ (s.busy = true ∧ ∃ i, s.command? = some i ∧ exec i s = .next t) := by
  unfold State.seqTurn at h
  split at h
  · split at h
    · exact .inr ⟨‹_›, _, ‹_›, h⟩
    · cases h
  · rename_i hb; cases h; exact .inl ⟨by simpa using hb, rfl⟩

/-- Everything a step can do when it has a next state. -/
theorem step_next {s t : State} (h : step s = .next t) : StepCase s t := by
  unfold step at h
  split at h
  · rename_i ha
    rcases State.seqTurn_next h with ⟨-, rfl⟩ | ⟨hb, i, hc, he⟩
    · exact .idle t.agenda rfl
    · refine .seq i s.agenda ?_ hc he
      simp [State.seqNext, hb, ha]
  · rename_i turn ts ha
    change (s.withAgenda ts).turn turn = .next t at h
    cases turn <;> simp only [State.turn] at h
    case write off width v =>
      obtain ⟨rfl, hal, hlt, h⟩ := accessChecked_next h
      rcases State.hostWrite_next h with ⟨rfl, hv, ht⟩ | ⟨rfl, ht⟩ | ⟨-, e, ht⟩ | ⟨rfl, hb, i, hd, he⟩ |
        ⟨-, hb, hm, ht⟩ | ⟨-, hb, ht⟩
      · exact .reset ts (by simp [State.resetsNext, ha, hv]) ht
      · exact .clearErr v ts ha ht
      · exact .raise e ts ht
      · exact .issue i v ts ha hb hd he
      · exact .config ts hb hm ht
      · exact .inputs ts hb ht
    case read off width =>
      obtain ⟨rfl, -, -, h⟩ := accessChecked_next h
      cases h
      rcases State.hostRead_spec (s.withAgenda ts) off with ⟨-, hr⟩ | ⟨rfl, hr⟩
      · exact .read off ts ha (by rw [hr]; rfl)
      · exact .pop ts ha hr
    case wait =>
      split at h
      · rename_i hb
        have hs : ({ s.withAgenda ts with agenda := .wait :: (s.withAgenda ts).agenda } : State) = s := by
          cases s; simp only at ha; subst ha; rfl
        rw [hs] at h
        rcases State.seqTurn_next h with ⟨-, rfl⟩ | ⟨hb', i, hc, he⟩
        · exact .idle t.agenda rfl
        · refine .seq i s.agenda ?_ hc he
          simp [State.seqNext, hb', ha]
      · cases h; exact .idle ts rfl
    case attach src =>
      cases h
      exact .attach src ts ha rfl
    case seq =>
      rcases State.seqTurn_next h with ⟨-, rfl⟩ | ⟨hb, i, hc, he⟩
      · exact .idle ts rfl
      · refine .seq i ts ?_ hc he
        have hb : s.busy = true := hb
        simp [State.seqNext, hb, ha]
    case powerOn =>
      cases h
      exact .reset ts (by simp [State.resetsNext, ha]) rfl

/-- Everything the sequencer's step of a command can do: of the executing one while `BUSY = 1`. -/
inductive SeqCase (s t : State) : Prop where
  | nop (hc : s.curOp = 0x00) (ht : t = s.complete)
  | initFails (hc : s.curOp = 0x01) (hr : s.rate = 0) (ht : t = (s.raise .cfg).complete)
  | init (hc : s.curOp = 0x01) (hr : s.rate ≠ 0) (ht : t = s.startRun.complete)
  | prodEmpty (hc : s.curOp = 0x02) (hz : s.prodRem = 0) (ht : t = s.complete)
  | prodHeld (hc : s.curOp = 0x02) (hz : s.prodRem ≠ 0) (ht : t = s)
  | prodSample (u : State) (hc : s.curOp = 0x02) (hz : s.prodRem ≠ 0) (hf : s.fifo.length < s.par.outDepth)
      (hp : s.phaseStep = .ok u) (ht : t = u.finishSample)
  | prodFails (e : Cause) (p : Nat) (u : State) (hc : s.curOp = 0x02) (hz : s.prodRem ≠ 0)
      (hf : s.fifo.length < s.par.outDepth) (hp : s.phaseStep = .fail e p u) (ht : t = u.failSample e p)
  | halt (hc : s.curOp = 0x03) (ht : t = (s.setMode .idle).complete)
  | tune (hc : s.curOp = 0x04) (ht : t = s.tuneStep)

theorem State.command?_eq {s : State} {i : Instr} (h : s.command? = some i) :
    (s.curOp = 0x00 ∧ i = .nop) ∨ (s.curOp = 0x01 ∧ i = .init) ∨ (s.curOp = 0x02 ∧ i = .prod s.prodRem.toNat) ∨
      (s.curOp = 0x03 ∧ i = .halt) ∨ (s.curOp = 0x04 ∧ i = .tune) := by
  unfold State.command? at h
  repeat' split at h
  all_goals simp_all

theorem exec_busy_next {s t : State} {i : Instr} (hb : s.busy = true) (hc : s.command? = some i)
    (h : exec i s = .next t) : SeqCase s t := by
  rcases State.command?_eq hc with ⟨hop, rfl⟩ | ⟨hop, rfl⟩ | ⟨hop, rfl⟩ | ⟨hop, rfl⟩ | ⟨hop, rfl⟩ <;>
    simp only [exec] at h
  · rw [execNop_busy hb] at h
    cases h; exact .nop hop rfl
  · by_cases hr : s.rate = 0
    · rw [execInit_noRate hb hr] at h
      cases h; exact .initFails hop hr rfl
    · rw [execInit_rate hb hr] at h
      cases h; exact .init hop hr rfl
  · rw [execProd_busy _ hb] at h
    rcases State.prodStep_next h with ⟨hz, ht⟩ | ⟨hz, ht⟩ | ⟨hz, hf, u, hp, ht⟩ | ⟨hz, hf, e, p, u, hp, ht⟩
    · exact .prodEmpty hop hz ht
    · exact .prodHeld hop hz ht
    · exact .prodSample u hop hz hf hp ht
    · exact .prodFails e p u hop hz hf hp ht
  · rw [execHalt_busy hb] at h
    cases h; exact .halt hop rfl
  · rw [execTune_busy hb] at h
    cases h; exact .tune hop rfl

/-- Everything an issue can do: the command is accepted, or a `PROD` is turned away (R131, R132). -/
theorem exec_idle_next {s t : State} {i : Instr} (hb : s.busy = false) (h : exec i s = .next t) :
    ((∀ n, i ≠ .prod n) ∧ t = s.accept i.op 0) ∨
    (∃ n, i = .prod n ∧ s.mode = .running ∧ t = s.accept 0x02 (BitVec.ofNat 16 n)) ∨
    (∃ n, i = .prod n ∧ s.mode ≠ .running ∧ t = s.raise .badState) := by
  cases i <;> simp only [exec] at h
  case nop => rw [execNop_idle hb] at h; cases h; exact .inl ⟨by simp, rfl⟩
  case init => rw [execInit_idle hb] at h; cases h; exact .inl ⟨by simp, rfl⟩
  case halt => rw [execHalt_idle hb] at h; cases h; exact .inl ⟨by simp, rfl⟩
  case tune => rw [execTune_idle hb] at h; cases h; exact .inl ⟨by simp, rfl⟩
  case prod n =>
    rw [execProd_idle n hb] at h
    split at h
    · cases h; exact .inr (.inl ⟨n, rfl, ‹_›, rfl⟩)
    · cases h; exact .inr (.inr ⟨n, rfl, ‹_›, rfl⟩)

end Sys2Proof.Machine
end

