-- ==== Sys2Proof/Tests/Slice0.lean ====
section
/-! SUPPORT. Tests on small states, with results taken from 95_test_vectors.md or worked out by hand from the rule
named, and one witness for the hypotheses of each obligation that has any. -/

namespace Sys2Proof.Tests

open Sys2Proof.Machine

/-! ## Helpers -/

/-- The next state of an outcome that has one. -/
def nextOf : Out → State
  | .next t => t
  | _ => State.reset

/-- A command executing (R130). -/
def executing (op : BitVec 8) (n : BitVec 16) (s : State) : State := { s with busy := true, curOp := op, prodRem := n }

/-- The frames of a mono source. -/
def monoFrames (ws : List Word) : List Frame := ws.map fun w => ⟨w, 0⟩

/-- In a run at 48 kHz just after `INIT`, `COEF[0] = 1.0`, mono source `[1.0, 2.0, 3.0]` (program P1). -/
def run48 : State :=
  { State.reset with
    rate := 48000, phase := 144000, mode := .running
    coef := State.reset.coef.set 0 0x3F800000
    src := Source.mono [0x3F800000, 0x40000000, 0x40400000] }

/-- The same run with a `PROD 10` executing. -/
def prod48 : State := executing 0x02 10 run48

/-- A run with a current frame and a phase step that advances nothing: the largest phase that does so at 48 kHz. -/
def held48 : State :=
  executing 0x02 1 { run48 with phase := 143999, chunk := monoFrames [0x3F800000], chunkLen := 1, smpcnt := 1, widx := 126 }

/-- A run whose FIFO, of depth 1, is full while a `PROD` owes samples. -/
def full48 : State := { prod48 with par := ⟨1, 1⟩, fifo := [0x3F800000] }

/-- The inputs of V-PLL row 1 and another carrier, deviation, reference or override in their place. -/
def tuned (fc dev fref : Word) (kovr : BitVec 8) : State :=
  executing 0x04 0 { State.reset with fc := fc, dev := dev, fref := fref, kovr := kovr }

/-! ## Well-formedness -/

theorem test_prod_65535_is_wellFormed : (Instr.prod 65535).wellFormed = true := by decide
theorem test_prod_65536_is_refused : (Instr.prod 65536).wellFormed = false := by decide

/-! ## Decoding (V-ENC of 95_test_vectors.md) -/

theorem test_decode_nop : decode 0x00000000 = .command .nop := by decide
theorem test_decode_init : decode 0x01000000 = .command .init := by decide
theorem test_decode_prod : decode 0x0200000A = .command (.prod 10) := by decide
theorem test_decode_prod_largest : decode 0x0200FFFF = .command (.prod 65535) := by decide
theorem test_decode_halt : decode 0x03000000 = .command .halt := by decide
theorem test_decode_tune : decode 0x04000000 = .command .tune := by decide
theorem test_decode_illegal :
    [0x00000001, 0x00FF0000, 0x01000100, 0x02010000, 0x02800005, 0x03000001, 0x04800000].map decode
        = List.replicate 7 (.illegal .reservedBits) ∧
      [0x05000000, 0x80000000, 0xFF000000, 0xFFFFFFFF].map decode = List.replicate 4 (.illegal .unassignedOp) := by
  decide
theorem test_decode_bytes : decodeBytes [0x0A, 0x00, 0x00, 0x02] = .command (.prod 10) := by decide
theorem test_decode_three_bytes : decodeBytes [0x0A, 0x00, 0x00] = .illegal .notOneWord := by decide
theorem test_decodeTableWord : decodeTableWord 32 0x0200000A = some (.prod 10) ∧ decodeTableWord 32 0x05000000 = none := by
  decide

/-! ## One step of each command -/

/-- V-SEQ rows 1 and 2. -/
theorem test_nop_issue : (nextOf (State.reset.hostWrite 0x014 0x00000000)).statusWord = 0x00000009 := by decide
theorem test_nop_step : (nextOf (exec .nop (executing 0x00 0 State.reset))).statusWord = 0x00000008 := by decide

/-- R240's example. -/
theorem test_init_step :
    (nextOf (exec .init (executing 0x01 0 { State.reset with rate := 48000 }))).statusWord = 0x0000000A ∧
      (nextOf (exec .init (executing 0x01 0 { State.reset with rate := 48000 }))).phase = 144000 := by decide
/-- V-EXC, `RATE = 0`. -/
theorem test_init_without_rate :
    (nextOf (exec .init (executing 0x01 0 State.reset))).err = 0x010 ∧
      (nextOf (exec .init (executing 0x01 0 State.reset))).mode = .idle := by decide

/-- P1 at `t = 0`. -/
theorem test_prod_first_sample :
    (nextOf (exec (.prod 10) prod48)).fifo = [0x3F800000] ∧ (nextOf (exec (.prod 10) prod48)).phase = 0 ∧
      (nextOf (exec (.prod 10) prod48)).readReg .chunk = 0x00030000 ∧ (nextOf (exec (.prod 10) prod48)).dl[0] = 0x3F800000 := by
  decide +kernel
/-- P6: the source answers `ERROR`. -/
theorem test_prod_source_error :
    (nextOf (exec (.prod 4) { prod48 with src := .error })).statusWord = 0x0000000C ∧
      (nextOf (exec (.prod 4) { prod48 with src := .error })).err = 0x040 ∧
      (nextOf (exec (.prod 4) { prod48 with src := .error })).phase = 0 := by decide +kernel

/-- V-SEQ, `HALT` in `RUNNING` with five words in the FIFO; and a `HALT` written while busy. -/
theorem test_halt_step :
    (nextOf (exec .halt (executing 0x03 0 { run48 with fifo := List.replicate 5 0 }))).statusWord = 0x00000000 := by
  decide
theorem test_halt_refused_while_busy : (nextOf (prod48.hostWrite 0x014 0x03000000)).err = 0x002 := by decide

/-- V-PLL row 1 (E1) and row 17. -/
theorem test_tune_step :
    (nextOf (exec .tune (tuned 87600000 75000 19200000 0))).k = 12 ∧
      (nextOf (exec .tune (tuned 87600000 75000 19200000 0))).fom = 3 ∧
      (nextOf (exec .tune (tuned 87600000 75000 19200000 0))).mint = 54 ∧
      (nextOf (exec .tune (tuned 87600000 75000 19200000 0))).mfrac = 0xC0000 ∧
      (nextOf (exec .tune (tuned 87600000 75000 19200000 0))).tstat = 0x1 := by decide +kernel
theorem test_tune_floor_of_negative :
    (nextOf (exec .tune (tuned 5 0 19200000 0))).tstat = 0x3 ∧
      (nextOf (exec .tune (tuned 5 0 19200000 0))).err = 0x020 := by decide +kernel

/-! ## The host window (V-HOST, V-EXC) -/

theorem test_read_status_after_reset : (State.reset.hostRead 0x00C).rdata = 0x00000008 := by decide
theorem test_read_param : (State.reset.hostRead 0x004).rdata = 0x04000100 := by decide
theorem test_write_rate_drops_reserved_bits :
    ((nextOf (State.reset.hostWrite 0x018 0x12345678)).hostRead 0x018).rdata = 0x00345678 := by decide
theorem test_write_ctrl_keeps_stereo_only :
    ((nextOf (State.reset.hostWrite 0x008 0x00000003)).hostRead 0x008).rdata = 0x00000001 := by decide
theorem test_clear_err : (nextOf (({ State.reset with err := 0x15 } : State).hostWrite 0x010 0x00000004)).err = 0x11 := by
  decide
theorem test_read_empty_fifo : (State.reset.hostRead 0x01C).rdata = 0 ∧ (State.reset.hostRead 0x01C).err = 0x100 := by
  decide
theorem test_locked_while_running : (nextOf (run48.hostWrite 0x018 44100)).err = 0x008 := by decide
theorem test_busyWr_wins_over_locked : (nextOf (prod48.hostWrite 0x018 44100)).err = 0x002 := by decide
theorem test_status_of_held_prod : (executing 0x02 44 { run48 with fifo := List.replicate 256 0 }).statusWord = 0x002C0233 := by
  decide +kernel
theorem test_windowByte : run48.windowByte 0x103 = 0x3F ∧ run48.windowByte 0x100 = 0x00 := by decide

/-! ## Arithmetic (43_fir.md R212 to R214; V-FIR and the downmix table) -/

theorem test_add_tie_to_even : fadd32 0x3F800000 0x33800000 = 0x3F800000 := by decide +kernel
theorem test_add_tie_up : fadd32 0x3F800000 0x34400000 = 0x3F800002 := by decide +kernel
theorem test_add_overflows : fadd32 0x7F61B1E6 0x7F61B1E6 = 0x7F800000 := by decide +kernel
theorem test_mul_half_of_least_subnormal : fmul32 0x00000001 0x3F000000 = 0x00000000 := by decide +kernel
theorem test_mul_subnormal_kept : fmul32 0x00000003 0x3F000000 = 0x00000002 := by decide +kernel
theorem test_nan_is_canonical : fadd32 0x00000000 0x7FC00001 = 0x7FC00000 := by decide +kernel

/-! ## A failed sample step can leave `PHASE` at `OUT_RATE` (R183, R244; not R64's first clause: assumption log 8) -/

theorem test_failed_phase_reaches_outRate :
    (nextOf (exec (.prod 1) { prod48 with rate := 384000, phase := 0, src := .error })).phase = 192000 ∧
      (nextOf (exec (.prod 1) { prod48 with rate := 384000, phase := 0, src := .error })).mode = .fault := by
  decide +kernel

/-! ## Host programs (R116 to R119) -/

theorem test_assemble_prod : assemble ['P', 'R', 'O', 'D', ' ', '0', 'x', '1', '0', ' ', ';', 'n'] = some (.prod 16) := by
  decide
theorem test_assemble_named_offset :
    assembleLine ['W', 'R', ' ', 'R', 'A', 'T', 'E', ',', ' ', '4', '8', '0', '0', '0'] = some (.wr 0x018 48000) := by
  decide
theorem test_setCoef_63 : (Line.setCoef 63 0x3F000000).turns = [.write 0x1FC 4 0x3F000000] := by decide
theorem test_prodN_70000 :
    (Line.prodN 70000).turns = [.write 0x014 4 0x0200FFFF, .wait, .write 0x014 4 0x02001171, .wait] := by decide

/-! ## The host's two definitions -/

theorem test_withFetchWord_issues :
    (nextOf (step (State.reset.withFetchWord 32 0x04000000))).statusWord = 0x00000409 := by decide

/-! ## Witnesses: states and operands that meet the hypotheses of each obligation, clause by clause -/

theorem test_wit_DecodeInvertsEncode :
    (65535 ≤ 65535 ∧ (Instr.prod 65535).wellFormed = true) ∧ decode 0x0200FFFF = .command (.prod 65535) := by decide

theorem test_wit_IllegalWordsAreExactlyTheReservedOnes :
    (¬ ∃ why, decode 0x0200FFFF = .illegal why) ∧
      State.reset.busy = false ∧ (∃ why, decode 0x02010000 = .illegal why) ∧ (∃ why, decode 0x05000000 = .illegal why) := by
  refine ⟨?_, rfl, ⟨.reservedBits, by decide⟩, ⟨.unassignedOp, by decide⟩⟩
  rintro ⟨why, h⟩
  rw [show decode 0x0200FFFF = .command (.prod 65535) by decide] at h
  cases h

/-- Both ways a command comes to run: a written word, and a busy sequencer with each kind of turn. -/
theorem test_wit_StepRunsTheDecodedCommand :
    (∃ s : State, s.agenda = .write 0x014 4 0x0200FFFF :: [] ∧ s.busy = false ∧
      decode 0x0200FFFF = .command (.prod 65535)) ∧
    (∃ s : State, s.busy = true ∧ s.command? = some (.prod 10) ∧ s.agenda = []) ∧
    (∃ s : State, s.busy = true ∧ s.command? = some (.prod 10) ∧ s.agenda = [.seq]) ∧
    (∃ s : State, s.busy = true ∧ s.command? = some (.prod 10) ∧ s.agenda = [.wait]) := by
  refine ⟨⟨{ run48 with agenda := [.write 0x014 4 0x0200FFFF] }, ?_⟩, ⟨prod48, ?_⟩,
    ⟨{ prod48 with agenda := [.seq] }, ?_⟩, ⟨{ prod48 with agenda := [.wait] }, ?_⟩⟩ <;> decide

theorem test_wit_IssuedCommandIsTheOneExecuted :
    ∃ t : State, (Instr.prod 65535).wellFormed = true ∧ run48.busy = false ∧ exec (.prod 65535) run48 = .next t ∧
      t.busy = true := ⟨_, by decide, rfl, rfl, rfl⟩

theorem test_wit_FetchWordIsRunNext :
    0xFFFFFFFF < 2 ^ 32 ∧ 0x0200FFFF < 2 ^ 32 ∧ decode (BitVec.ofNat 32 0x0200FFFF) = .command (.prod 65535) := by decide

theorem test_wit_IssueAcceptsByModeAndWord :
    prod48.busy = true ∧ run48.busy = false ∧ State.reset.busy = false ∧ decode 0x05000000 = .illegal .unassignedOp ∧
      decode 0x0200FFFF = .command (.prod 65535) ∧ State.reset.mode ≠ .running ∧ run48.mode = .running ∧
      decode 0x04000000 = .command .tune := by decide

theorem test_wit_NopOnlyCompletes :
    prod48.busy = true ∧ State.reset.busy = false ∧ (1 : BitVec 24) ≠ 0 ∧ (0xFFFFFF : BitVec 24) ≠ 0 := by decide

theorem test_wit_HaltGoesIdleAndKeepsTheRest :
    (executing 0x03 0 run48).busy = true ∧ run48.busy = false ∧ (0x800000 : BitVec 24) ≠ 0 := by decide

theorem test_wit_InitStartsARun :
    (State.reset.busy = false) ∧ ((executing 0x01 0 State.reset).busy = true ∧ (executing 0x01 0 State.reset).rate = 0) ∧
      ((executing 0x01 0 run48).ParamsOk ∧ (executing 0x01 0 run48).busy = true ∧ (executing 0x01 0 run48).rate ≠ 0 ∧
        (executing 0x01 0 run48).rate = 48000) ∧
      (1 : BitVec 24) ≠ 0 := by decide

theorem test_wit_ProdStepMakesOneSample :
    ((executing 0x02 0 run48).busy = true ∧ (executing 0x02 0 run48).prodRem = 0) ∧
    (prod48.busy = true ∧ prod48.prodRem ≠ 0 ∧ prod48.fifo.length < prod48.par.outDepth ∧
      ∃ u v : State, prod48.phaseStep = .ok u ∧ v = u.insert u.currentSample) ∧
    (∃ (e : Cause) (p : Nat) (u : State), ({ prod48 with src := .error } : State).phaseStep = .fail e p u) :=
  ⟨by decide, ⟨by decide, by decide, by decide, _, _, rfl, rfl⟩, _, _, _, rfl⟩

/-- The second state has a full FIFO (log 17). -/
theorem test_wit_ProdZeroOnlyCompletes :
    (run48.busy = false ∧ run48.mode = .running) ∧
      ((executing 0x02 0 full48).busy = true ∧ (executing 0x02 0 full48).prodRem = 0 ∧
        (executing 0x02 0 full48).fifo.length = (executing 0x02 0 full48).par.outDepth) := by decide

theorem test_wit_ProdHoldsWhileTheFifoIsFull :
    (full48.busy = true ∧ full48.curOp = 0x02 ∧ full48.prodRem ≠ 0 ∧ full48.fifo.length = full48.par.outDepth ∧
      0 < full48.par.outDepth) ∧ ∃ t, exec (.prod 10) prod48 = .next t := ⟨by decide, _, rfl⟩

theorem test_wit_FailedSampleKeepsTheLine :
    (∃ (s u : State) (e : Cause) (p : Nat), s.busy = true ∧ s.prodRem ≠ 0 ∧ s.fifo.length < s.par.outDepth ∧
      s.phaseStep = .fail e p u) ∧
    (∃ s : State, s.busy = false ∧ s.mode = .fault) :=
  ⟨⟨{ prod48 with src := .error }, _, _, _, by decide, by decide, by decide, rfl⟩, { State.reset with mode := .fault },
    rfl, rfl⟩

/-- The last phase that needs no new frame, and the first that does, with a file attached. -/
theorem test_wit_ProdProducesItsSample :
    (held48.Inv ∧ held48.busy = true ∧ held48.curOp = 0x02 ∧ held48.prodRem ≠ 0 ∧
      held48.fifo.length < held48.par.outDepth ∧ held48.phase.toNat + held48.rate.toNat = 191999) ∧
    (prod48.Inv ∧ prod48.busy = true ∧ prod48.curOp = 0x02 ∧ prod48.prodRem ≠ 0 ∧
      prod48.fifo.length < prod48.par.outDepth ∧ prod48.phase.toNat + prod48.rate.toNat = 192000 ∧
      ∃ stereo stream pos, prod48.src = .file stereo stream pos ∧ stream ≠ []) ∧
    held48.windowByte 0x200 = 0 ∧ 0x200 / 4 * 4 ≠ 0x200 + 4 * held48.widx.toNat ∧
      0x3F7 / 4 * 4 ≠ 0x200 + 4 * held48.widx.toNat :=
  ⟨by decide, ⟨by decide, rfl, rfl, by decide, by decide, by decide, false, _, 0, rfl, by decide⟩, by decide, by decide,
    by decide⟩

/-- A run that owes two advances and holds one frame after the current one; and its states with the silent source, and
with sources that answer the first read, or the read after a rewind, with two frames where one was asked for. -/
def oneLeft : State :=
  { prod48 with par := ⟨1, 1⟩, phase := 0, rate := 384000, chunk := monoFrames [1, 2], chunkLen := 2, src := .silent }

theorem test_wit_UndutifulSourceHoldsOrIsRefused :
    (∃ v : State, oneLeft.busy = true ∧ oneLeft.prodRem ≠ 0 ∧ oneLeft.fifo.length < oneLeft.par.outDepth ∧
      1 < (oneLeft.phase.toNat + oneLeft.rate.toNat) / 192000 ∧ oneLeft.advances 1 = .ok v ∧
      ¬ v.chunkIdx.toNat + 1 < v.chunkLen.toNat ∧ v.src = .silent) ∧
    (∃ s v : State, s = { oneLeft with src := .script [.frames (monoFrames [1, 2])] [] } ∧ s.busy = true ∧
      s.prodRem ≠ 0 ∧ s.fifo.length < s.par.outDepth ∧ 1 < (s.phase.toNat + s.rate.toNat) / 192000 ∧
      s.advances 1 = .ok v ∧ ¬ v.chunkIdx.toNat + 1 < v.chunkLen.toNat ∧
      v.src = .script [.frames (monoFrames [1, 2])] [] ∧ v.par.chunkFrames < (monoFrames [1, 2]).length) ∧
    (∃ s v u w : State, s = { oneLeft with src := .script [.frames [], .frames (monoFrames [1, 2])] [.ok] } ∧
      s.busy = true ∧ s.prodRem ≠ 0 ∧ s.fifo.length < s.par.outDepth ∧
      1 < (s.phase.toNat + s.rate.toNat) / 192000 ∧ s.advances 1 = .ok v ∧
      ¬ v.chunkIdx.toNat + 1 < v.chunkLen.toNat ∧ v.srcRead = .answered (.frames []) u ∧
      u.srcRewind = .answered .ok w ∧ w.src = .script [.frames (monoFrames [1, 2])] [] ∧
      w.par.chunkFrames < (monoFrames [1, 2]).length) ∧
    (192000 ≤ oneLeft.phase.toNat + oneLeft.rate.toNat ∧ oneLeft.src = .silent ∧
      oneLeft.chunkLen.toNat
        = oneLeft.chunkIdx.toNat + (oneLeft.phase.toNat + oneLeft.rate.toNat) / 192000) :=
  ⟨⟨_, rfl, by decide, by decide, by decide, rfl, by decide, rfl⟩,
    ⟨_, _, rfl, rfl, by decide, by decide, by decide, rfl, by decide, rfl, by decide⟩,
    ⟨_, _, _, _, rfl, rfl, by decide, by decide, by decide, rfl, by decide, rfl, rfl, rfl, by decide⟩, by decide⟩

/-- A phase step that succeeds, one that fails, one unanswered and one overrun at its second advance, and the last phase
that owes none (`p = 191999`). -/
theorem test_wit_PhaseStepIsExact :
    (∃ t, prod48.phaseStep = .ok t) ∧
    (∃ (s u : State) (e : Cause) (r : Nat), s = { oneLeft with src := .error } ∧ s.phaseStep = .fail e r u) ∧
    oneLeft.phaseStep = .unanswered ∧
    (∃ s : State, s = { oneLeft with src := .script [.frames (monoFrames [1, 2])] [] } ∧ s.phaseStep = .overrun) ∧
    held48.phase.toNat + held48.rate.toNat = 191999 :=
  ⟨⟨_, rfl⟩, ⟨_, _, _, _, rfl, rfl⟩, rfl, ⟨_, rfl, rfl⟩, by decide⟩

/-- 88 advances: the largest rate on the largest phase. -/
theorem test_wit_PhaseStepIsBounded :
    (∃ s t : State, s.phase.toNat < 192000 ∧ (s.phase.toNat + s.rate.toNat) / 192000 = 88 ∧ s.phaseStep = .ok t) ∧
    (∃ (s t : State) (e : Cause) (p : Nat), s.phase.toNat < 192000 ∧ s.phaseStep = .fail e p t) :=
  ⟨⟨{ prod48 with phase := 191999, rate := 16777215, chunkLen := 200 }, _, by decide, by decide, rfl⟩,
    { prod48 with src := .error }, _, _, _, by decide, rfl⟩

theorem test_wit_AdvanceTakesTheNextFrame :
    (∃ s : State, s.chunkIdx.toNat + 1 < s.chunkLen.toNat) ∧
    (∃ s u : State, ¬ s.chunkIdx.toNat + 1 < s.chunkLen.toNat ∧ s.refill = .ok u) ∧
    (∃ (s u : State) (e : Cause), ¬ s.chunkIdx.toNat + 1 < s.chunkLen.toNat ∧ s.refill = .fail e u) :=
  ⟨⟨{ held48 with chunkLen := 2 }, by decide⟩, ⟨{ held48 with chunkLen := 1 }, _, by decide, rfl⟩,
    { held48 with src := .error }, _, _, by decide, rfl⟩

theorem test_wit_RefillStoresTheFramesRead :
    (∃ f fs u, prod48.srcRead = .answered (.frames (f :: fs)) u) ∧
    (∃ s u : State, s.srcRead = .answered .error u) ∧
    (∃ s u v : State, s.srcRead = .answered (.frames []) u ∧ u.srcRewind = .answered .error v) ∧
    (∃ s u v w x : State, s.srcRead = .answered (.frames []) u ∧ u.srcRewind = .answered .ok v ∧
      w = { v with rwcnt := s.rwcnt + 1 } ∧ w.srcRead = .answered .error x) ∧
    (∃ s u v w x : State, s.srcRead = .answered (.frames []) u ∧ u.srcRewind = .answered .ok v ∧
      w = { v with rwcnt := s.rwcnt + 1 } ∧ w.srcRead = .answered (.frames []) x) ∧
    (∃ s u v w x : State, ∃ f fs, s.srcRead = .answered (.frames []) u ∧ u.srcRewind = .answered .ok v ∧
      w = { v with rwcnt := s.rwcnt + 1 } ∧ w.srcRead = .answered (.frames (f :: fs)) x) ∧
    (∃ (s t : State) (e : Cause), s.refill = .fail e t) ∧ (∃ t, prod48.refill = .ok t) :=
  ⟨⟨_, _, _, rfl⟩, ⟨{ prod48 with src := .error }, _, rfl⟩,
    ⟨{ prod48 with src := .script [.frames []] [.error] }, _, _, rfl, rfl⟩,
    ⟨{ prod48 with src := .script [.frames [], .error] [.ok] }, _, _, _, _, rfl, rfl, rfl, rfl⟩,
    ⟨{ prod48 with src := Source.mono [] }, _, _, _, _, rfl, rfl, rfl, rfl⟩,
    ⟨{ prod48 with src := .file false (monoFrames [1]) 1 }, _, _, _, _, _, _, rfl, rfl, rfl, rfl⟩,
    ⟨{ prod48 with src := .error }, _, _, rfl⟩, _, rfl⟩

theorem test_wit_FileSourceReadsItsStream :
    (∃ stream pos, prod48.src = .file prod48.stereo stream pos) ∧ (∃ s : State, s.src = .error) ∧
    (∃ (s : State) (fs : List Frame) (r : RewindAnswer), fs.length = s.par.chunkFrames ∧ s.src = .script [.frames fs] [r]) :=
  ⟨⟨_, _, rfl⟩, ⟨{ prod48 with src := .error }, rfl⟩,
    { prod48 with par := ⟨1, 1⟩, src := .script [.frames (monoFrames [1])] [.ok] }, _, _, rfl, rfl⟩

theorem test_wit_CurrentSampleIsMonoWordOrMean :
    (held48.chunk[held48.chunkIdx.toNat]? = some ⟨0x3F800000, 0⟩ ∧ held48.stereo = false) ∧
    (∃ s : State, s.chunk[s.chunkIdx.toNat]? = some ⟨1, 2⟩ ∧ s.stereo = true) ∧
    (∃ u, held48.Inv ∧ held48.mode = .running ∧ held48.phaseStep = .ok u) :=
  ⟨by decide, ⟨{ held48 with stereo := true, chunk := [⟨1, 2⟩] }, rfl, rfl⟩, _, by decide, rfl, rfl⟩

theorem test_wit_CountLawIsKept : run48.Inv ∧ run48.mode = .running ∧ run48.CountLaw ∧ ∃ t, step run48 = .next t :=
  ⟨by decide, rfl, fun _ => ⟨0, 0, by decide, rfl, rfl, rfl⟩, _, rfl⟩

theorem test_wit_FileLoopsOnEndOfStream :
    run48.ParamsOk ∧ run48.FreshFile (monoFrames [0x3F800000, 0x40000000, 0x40400000]) ∧
      monoFrames [0x3F800000, 0x40000000, 0x40400000] ≠ [] := by decide

theorem test_wit_InsertWritesOneEntry : held48.widx.toNat = 126 ∧ held48.widx.toNat ≤ 126 ∧ (125 : Nat) ≠ held48.widx.toNat := by
  decide

theorem test_wit_NewestAndOldestWalkOutward : ∃ u : State, held48.widx.toNat ≤ 126 ∧ u = held48.insert 1 ∧ (63 : Nat) < 64 :=
  ⟨_, by decide, rfl, by decide⟩

theorem test_wit_EvaluationFollowsTheOrder : held48.widx.toNat ≤ 126 := by decide

theorem test_wit_SymmetricTermsAreTheFullKernel : (126 : Nat) ≤ 126 ∧ (63 : Nat) ≤ 126 ∧ (0 : Nat) ≤ 126 := by decide

/-- At 192 kHz every tap but the centre is 0, so the divisor is 1 (V-KER's last row). -/
theorem test_wit_ReferenceKernelIsNormalised : kernelSum 192000 ≠ 0 := by
  have h0 : ∀ m ∈ Finset.Icc (-63 : Int) 63, m ≠ 0 → rawTap 192000 m * hamming m = 0 := by
    intro m _ hm
    have hs : Real.sin (2 * Real.pi * cutoff 192000 * m / Config.outRate) = 0 := by
      have : (2 * Real.pi * cutoff 192000 * m / Config.outRate : ℝ) = m * Real.pi := by
        simp only [cutoff, Config.outRate, min_self]
        push_cast
        ring
      rw [this]
      exact Real.sin_int_mul_pi m
    simp only [rawTap, if_neg hm, hs, zero_div, zero_mul]
  have hsum : kernelSum 192000 = rawTap 192000 0 * hamming 0 :=
    Finset.sum_eq_single_of_mem 0 (by decide) h0
  rw [hsum]
  simp only [rawTap, hamming, cutoff, Config.outRate, min_self, if_true]
  norm_num

/-- A sum halfway between two numbers; the largest subnormal and the least; the largest finite number with half a unit
of its last place, which overflows, and with the number just below that, which does not; and a sum that is 0. -/
theorem test_wit_AdditionRoundsToNearestEven :
    (isFinite 0x3F800000 = true ∧ isFinite 0x33800000 = true ∧
      |value 0x3F800000 + value 0x33800000| < (2 ^ 25 - 1) * 2 ^ 252 ∧ isFinite 0x3F800001 = true ∧
      |value 0x3F800000 + value 0x33800000 - value (fadd32 0x3F800000 0x33800000)|
        = |value 0x3F800000 + value 0x33800000 - value 0x3F800001| ∧
      value 0x3F800001 ≠ value (fadd32 0x3F800000 0x33800000)) ∧
    (isFinite 0x007FFFFF = true ∧ isFinite 0x00000001 = true ∧
      |value 0x007FFFFF + value 0x00000001| < (2 ^ 25 - 1) * 2 ^ 252) ∧
    (isFinite 0xFF7FFFFF = true ∧ isFinite 0xF3000000 = true ∧ isFinite 0xF2FFFFFF = true ∧
      (2 ^ 25 - 1) * 2 ^ 252 = |value 0xFF7FFFFF + value 0xF3000000| ∧
      |value 0xFF7FFFFF + value 0xF2FFFFFF| < (2 ^ 25 - 1) * 2 ^ 252) ∧
    (isFinite 0x80000000 = true ∧ value 0x80000000 + value 0x80000000 = 0) := by
  decide +kernel

/-- A product halfway between 0 and the least subnormal; the largest finite number times 1; the least power of two that
overflows; and a product that is 0. -/
theorem test_wit_MultiplicationRoundsToNearestEven :
    (isFinite 0x00000001 = true ∧ isFinite 0x3F000000 = true ∧
      |value 0x00000001 * value 0x3F000000| < (2 ^ 25 - 1) * 2 ^ 252 * 2 ^ 149 ∧
      |value 0x00000001 * value 0x3F000000 - value (fmul32 0x00000001 0x3F000000) * 2 ^ 149|
        = |value 0x00000001 * value 0x3F000000 - value 0x00000001 * 2 ^ 149| ∧
      value 0x00000001 ≠ value (fmul32 0x00000001 0x3F000000)) ∧
    (isFinite 0x7F7FFFFF = true ∧ isFinite 0x3F800000 = true ∧
      |value 0x7F7FFFFF * value 0x3F800000| < (2 ^ 25 - 1) * 2 ^ 252 * 2 ^ 149) ∧
    (isFinite 0x7F000000 = true ∧ isFinite 0xC0000000 = true ∧
      (2 ^ 25 - 1) * 2 ^ 252 * 2 ^ 149 ≤ |value 0x7F000000 * value 0xC0000000|) ∧
    (isFinite 0x80000000 = true ∧ value 0x7F000000 * value 0x80000000 = 0) := by
  decide +kernel

theorem test_wit_ArithmeticSpecialCases :
    isNaN 0x7F800001 = true ∧ isNaN 0xFFFFFFFF = true ∧ isFinite 0x7F7FFFFF = true ∧ isFinite 0x80000000 = true ∧
      isInf 0xFF800000 = true ∧ isInf 0x7F800000 = true ∧ value 0x80000000 = 0 ∧ isNaN 0x7F800000 = false ∧
      isNaN 0x00000001 = false ∧ value 0x00000001 ≠ 0 ∧ value 0xFF800000 ≠ 0 ∧ isNaN 0x3F800000 = false ∧
      isNaN (fmul32 0x7F800000 0x3F800000) = false := by decide +kernel

theorem test_wit_AdditionIsCommutative :
    ∃ s t : State, s.stereo = true ∧ t.stereo = true ∧ s.chunk[s.chunkIdx.toNat]? = some ⟨1, 2⟩ ∧
      t.chunk[t.chunkIdx.toNat]? = some ⟨2, 1⟩ :=
  ⟨{ held48 with stereo := true, chunk := [⟨1, 2⟩] }, { held48 with stereo := true, chunk := [⟨2, 1⟩] }, rfl, rfl, rfl, rfl⟩

/-- Candidates that are valid, that fail the VCO limit exactly, and that fail the swing test (V-PLL rows 2, 5). -/
theorem test_wit_ValidMeansVcoLimitAndSwing :
    (⟨100000000, 75000, 19200000⟩ : TuneIn).valid 13 = true ∧ (⟨100000000, 75000, 19200000⟩ : TuneIn).valid 14 = false ∧
      (⟨88000000, 75000, 19200000⟩ : TuneIn).valid 12 = false ∧ 0 < (⟨88000000, 75000, 19200000⟩ : TuneIn).fref := by
  decide +kernel

theorem test_wit_FigureCountsThePoints :
    0 < (⟨100000000, 0, 1⟩ : TuneIn).fref ∧ (⟨100000000, 0, 1⟩ : TuneIn).figure 11 = 1 ∧
      (⟨100000000, 0, 1⟩ : TuneIn).figure 10 = 2 := by decide +kernel

theorem test_wit_TuneChoosesTheFirstBest :
    (tuned 90000000 75000 19200000 0).busy = true ∧ (tuned 90000000 75000 19200000 0).fref ≠ 0 ∧
      (tuned 90000000 75000 19200000 0).kovr = 0 ∧
      ∃ k, 2 ≤ k ∧ k < 50 ∧ (tuned 90000000 75000 19200000 0).tuneIn.valid k = true :=
  ⟨rfl, by decide, rfl, 11, by decide, by decide, by decide +kernel⟩

theorem test_wit_TuneFailsWithoutADivider :
    (tuned 5 0 19200000 0).busy = true ∧ (tuned 5 0 19200000 0).fref ≠ 0 ∧ (tuned 5 0 19200000 0).kovr = 0 ∧
      ∀ k, 2 ≤ k → k < 50 → (tuned 5 0 19200000 0).tuneIn.valid k = false := by
  refine ⟨rfl, by decide, rfl, fun k _ hk => ?_⟩
  have h : ∀ k : Fin 50, 2 ≤ k.val → (tuned 5 0 19200000 0).tuneIn.valid k = false := by decide +kernel
  exact h ⟨k, hk⟩ ‹_›

theorem test_wit_TuneNeedsAReference : (tuned 87600000 75000 0 5).busy = true ∧ (tuned 87600000 75000 0 5).fref = 0 := by
  decide

theorem test_wit_TuneTrustsTheOverride :
    (tuned 0xFFFFFFFF 0 1 255).busy = true ∧ (tuned 0xFFFFFFFF 0 1 255).fref ≠ 0 ∧ (tuned 0xFFFFFFFF 0 1 255).kovr ≠ 0 := by
  decide

theorem test_wit_TuneIsAFunctionOfItsInputs :
    ∃ s t : State, s ≠ t ∧ s.busy = true ∧ t.busy = true ∧ s.fc = t.fc ∧ s.dev = t.dev ∧ s.fref = t.fref ∧ s.kovr = t.kovr :=
  ⟨tuned 5 0 1 0, { tuned 5 0 1 0 with mode := .running }, fun h => absurd (congrArg State.mode h) (by decide), rfl, rfl,
    rfl, rfl, rfl, rfl⟩

theorem test_wit_TuneSearchConsequences :
    (0 < (⟨100000000, 0, 1⟩ : TuneIn).fc ∧ 14 ≤ 49 ∧ (⟨100000000, 0, 1⟩ : TuneIn).underVco 14 = false) ∧
    (0 < (⟨9, 0, 19200000⟩ : TuneIn).fref ∧ 2 ≤ 2 ∧ (⟨9, 0, 19200000⟩ : TuneIn).fc < 10 + (⟨9, 0, 19200000⟩ : TuneIn).dev) ∧
    (∃ u : State, (tuned 10 0 19200000 0).busy = true ∧ exec .tune (tuned 10 0 19200000 0) = .next u ∧ u.tstat = 0b001) :=
  ⟨by decide, by decide, (tuned 10 0 19200000 0).tuneStep, rfl, rfl, by decide +kernel⟩

theorem test_wit_TuneResultsAreHeld :
    ∃ t : State, step prod48 = .next t ∧ prod48.runsNext 0x04 = false ∧ prod48.resetsNext = false :=
  ⟨_, rfl, by decide, by decide⟩

theorem test_wit_HostWriteFollowsTheMap : (0x000 % 4 = 0 ∧ 0x000 < 0x400) ∧ (0x3FC % 4 = 0 ∧ 0x3FC < 0x400) := by decide

theorem test_wit_HostReadFollowsTheMap :
    (0x3FC % 4 = 0 ∧ 0x3FC < 0x400) ∧ (full48.ParamsOk ∧ full48.fifo = 0x3F800000 :: [] ∧
      full48.fifo.length ≤ full48.par.outDepth) ∧ (State.reset.ParamsOk ∧ State.reset.fifo = []) ∧
    ({ State.reset with par := ⟨65535, 65535⟩ } : State).ParamsOk := by decide

theorem test_wit_OtherAccessesAreRefused :
    ((2 : Nat) ≠ 4 ∨ 0x010 % 4 ≠ 0) ∧ ((4 : Nat) ≠ 4 ∨ 0x3FD % 4 ≠ 0) ∧ ((4 : Nat) = 4 ∧ 0x400 % 4 = 0 ∧ 0x400 ≤ 0x400) := by
  decide

theorem test_wit_ReservedPlacesReadZero :
    (0x03C % 4 = 0 ∧ 0x064 % 4 = 0 ∧ 0x0FC % 4 = 0 ∧ 0x3FC % 4 = 0) ∧ State.reset.busy = false ∧ prod48.busy = true ∧
      State.reset.mode ≠ .running ∧ (0x7FFFFFFF : Word).getLsbD 31 = false := by decide

theorem test_wit_RefusedWritesSetOnlyTheirBit :
    (0x3FC % 4 = 0 ∧ 0x3FC < 0x400 ∧ prod48.busy = true ∧ 0x3FC ≠ 0x010 ∧
      ¬ (0x3FC = 0x008 ∧ (0 : Word).getLsbD 31 = true)) ∧
    (run48.busy = false ∧ run48.mode = .running ∧ (1 : Word).getLsbD 31 = false ∧ 0x1FC % 4 = 0 ∧
      (0x100 ≤ 0x1FC ∧ 0x1FC ≤ 0x1FC) ∧ 0x100 % 4 = 0) := by decide

theorem test_wit_InputsAreFixedWhileBusyOrRunning :
    (∃ t : State, step prod48 = .next t ∧ prod48.busy = true ∧ prod48.resetsNext = false) ∧
    (∃ s t : State, step s = .next t ∧ s.agenda = [.write 0x018 4 44100] ∧ s.mode = .running ∧ s.resetsNext = false) :=
  ⟨⟨_, rfl, rfl, by decide⟩, { run48 with agenda := [.write 0x018 4 44100] }, _, rfl, rfl, rfl, by decide⟩

theorem test_wit_ModeChangesOnlyAsListed :
    ∃ t : State, step { prod48 with src := .error } = .next t ∧ t.mode ≠ ({ prod48 with src := .error } : State).mode :=
  ⟨_, rfl, by decide⟩

theorem test_wit_FifoKeepsOrderAndDropsNothing :
    ∃ s t : State, step s = .next t ∧ s.agenda = [.read 0x01C 4] ∧ s.fifo ≠ t.fifo :=
  ⟨{ full48 with agenda := [.read 0x01C 4] }, _, rfl, rfl, by decide⟩

theorem test_wit_ErrorsAreStickyAndComeOneAtATime :
    (∃ s t : State, step s = .next t ∧ s.resetsNext = false ∧ (∀ v ts, s.agenda ≠ .write 0x010 4 v :: ts) ∧ t.err ≠ s.err) ∧
    (∃ s : State, s.agenda = .write 0x010 4 0x1FF :: []) :=
  ⟨⟨{ prod48 with agenda := [.write 0x014 4 0] }, _, rfl, by decide, by simp, by decide⟩,
    { prod48 with agenda := [.write 0x010 4 0x1FF] }, rfl⟩

theorem test_wit_OnlyProdAsksTheSource :
    ∃ s t : State, step s = .next t ∧ s.runsNext 0x02 = false ∧ s.agenda = [.attach .silent] ∧ t.src ≠ s.src :=
  ⟨{ prod48 with agenda := [.attach .silent] }, _, rfl, by decide, rfl, by decide⟩

theorem test_wit_ResetIsHonouredInEveryState :
    (∃ s : State, s.busy = true ∧ s.agenda = .powerOn :: []) ∧
    (∃ s : State, (0x80000001 : Word).getLsbD 31 = true ∧ s.busy = true ∧ s.agenda = .write 0x008 4 0x80000001 :: []) :=
  ⟨⟨{ prod48 with agenda := [.powerOn] }, rfl, rfl⟩, { prod48 with agenda := [.write 0x008 4 0x80000001] }, by decide, rfl,
    rfl⟩

theorem test_wit_NothingRunsUnconfiguredAfterReset :
    ∃ u : State, full48.ParamsOk ∧ u = full48.resetBlock ∧ 65535 ≤ 65535 := ⟨_, by decide, rfl, by decide⟩

theorem test_wit_InvariantsAreKeptByEveryStep : ∃ t : State, prod48.Inv ∧ step prod48 = .next t := ⟨_, by decide, rfl⟩

theorem test_wit_LawfulStepsProceed :
    ∃ s : State, s.Inv ∧ s.agenda = [.write 0x3FC 4 0] ∧ (∀ t ts, s.agenda = t :: ts → t.lawful = true) ∧
      s.src.dutiful s.par.chunkFrames = true := by
  refine ⟨{ prod48 with agenda := [.write 0x3FC 4 0] }, by decide, rfl, ?_, rfl⟩
  intro t ts h
  cases h
  decide

theorem test_wit_WaitEndsWhenNotBusy :
    (∃ s : State, s.agenda = .wait :: [.read 0x00C 4] ∧ s.busy = false) ∧
    (∃ s t : State, s.agenda = .wait :: [] ∧ s.busy = true ∧ step s = .next t) ∧
    (∃ s : State, s.agenda = .wait :: [] ∧ s.stall = true) :=
  ⟨⟨{ run48 with agenda := [.wait, .read 0x00C 4] }, rfl, rfl⟩,
    ⟨{ prod48 with agenda := [.wait] }, _, rfl, rfl, rfl⟩, { full48 with agenda := [.wait] }, rfl, by decide⟩

/-- R247's interleaving of a `PROD`'s steps with the reads is a schedule of the program, and so is the one loaded. -/
theorem test_schedules_of_a_program :
    Scheduled [.cmd (.prod 2), .drain 2]
        [.write 0x014 4 0x02000002, .seq, .read 0x01C 4, .seq, .read 0x01C 4] ∧
      Scheduled [.cmd (.prod 2), .drain 2] (State.runningProgram [.cmd (.prod 2), .drain 2]).agenda ∧
      ¬ Scheduled [.cmd (.prod 2), .drain 2] [.seq, .write 0x014 4 0x02000002, .read 0x01C 4] := by decide

theorem test_wit_PseudoInstructionsExpand :
    (63 : Nat) ≤ 63 ∧ 65535 < 65536 ∧ 65535 < 131070 ∧
      ∃ ms : List Nat, ms = List.replicate (65536 / 65535) 65535 ++ (if 65536 % 65535 = 0 then [] else [65536 % 65535]) :=
  ⟨by decide, by decide, by decide, _, rfl⟩

end Sys2Proof.Tests
end

section
/-! The host window: what lies at each offset, what a host access of one aligned word does (20_memory.md R83 to R88),
and the statements about the whole map. -/

namespace Sys2Proof.Machine

/-! ## Words and the numbers they hold -/

/-- Fields side by side: the number of the upper one, shifted by the width of the lower one, plus that of the lower. -/
theorem toNat_append_eq_add {m n : Nat} (x : BitVec m) (y : BitVec n) :
    (x ++ y).toNat = x.toNat * 2 ^ n + y.toNat := by
  rw [BitVec.toNat_append, ← Nat.shiftLeft_add_eq_or_of_lt y.isLt, Nat.shiftLeft_eq]

/-- A register of `n` bits drops the others of the word written and reads back with 0 in their places (R84). -/
theorem setWidth_extractLsb'_eq_and (v : Word) (n : Nat) :
    (v.extractLsb' 0 n).setWidth 32 = v &&& (BitVec.allOnes n).setWidth 32 := by
  ext i hi
  by_cases hn : i < n <;> simp [hn, hi, ← BitVec.getLsbD_eq_getElem]

theorem ofBool_getLsbD_zero (v : Word) : BitVec.ofBool (v.getLsbD 0) = v.extractLsb' 0 1 := by
  ext i hi
  obtain rfl : i = 0 := by omega
  simp

/-- An entry of a memory, by its place in the list of the entries. -/
theorem vector_toList_getD {n : Nat} (x : Vector Word n) (i : Fin n) : x.toList.getD i 0 = x[i] := by
  simp

/-- `STATUS` by its fields at their places (10_state.md R37). -/
theorem State.statusWord_toNat (s : State) :
    s.statusWord.toNat =
      s.prodRem.toNat * 2 ^ 16 + s.curOp.toNat * 2 ^ 8 + s.stall.toNat * 2 ^ 5 + s.outFull.toNat * 2 ^ 4 +
        s.outEmpty.toNat * 2 ^ 3 + s.mode.code.toNat * 2 + s.busy.toNat := by
  simp only [State.statusWord, toNat_append_eq_add, BitVec.toNat_ofBool, BitVec.ofNat_eq_ofNat, BitVec.toNat_ofNat]
  omega

/-- `PARAM` by the two parameters, which R8 bounds by 16 bits (10_state.md R35). -/
theorem State.readReg_param_toNat {s : State} (hc : s.par.chunkFrames ≤ 65535) (hd : s.par.outDepth ≤ 65535) :
    (s.readReg .param).toNat = s.par.chunkFrames * 2 ^ 16 + s.par.outDepth := by
  refine (toNat_append_eq_add _ _).trans ?_
  rw [BitVec.toNat_ofNat, BitVec.toNat_ofNat, Nat.mod_eq_of_lt (by omega), Nat.mod_eq_of_lt (by omega)]

/-! ## The register map -/

/-- Everything that can lie at an aligned offset of the window (R83, R84). -/
theorem regAt_cases {off : Nat} (ha : off % 4 = 0) (hw : off < 0x400) :
    (off, regAt off) ∈ regTable ∨
    (∃ h : 0x100 ≤ off ∧ off ≤ 0x1FC, regAt off = .coef ⟨(off - 0x100) / 4, by omega⟩) ∨
    (∃ h : 0x200 ≤ off ∧ off ≤ 0x3F8, regAt off = .dl ⟨(off - 0x200) / 4, by omega⟩) ∨
    (regAt off = .reserved ∧ (off = 0x03C ∨ (0x064 ≤ off ∧ off ≤ 0x0FC) ∨ off = 0x3FC)) := by
  by_cases hc : 0x100 ≤ off ∧ off ≤ 0x1FC
  · exact .inr (.inl ⟨hc, regAt_coef hc⟩)
  by_cases hd : 0x200 ≤ off ∧ off ≤ 0x3F8
  · exact .inr (.inr (.inl ⟨hd, regAt_dl hd⟩))
  rw [regAt_table hc hd]
  cases hl : regTable.lookup off with
  | some r => exact .inl (regTable_lookup hl)
  | none =>
    refine .inr (.inr (.inr ⟨rfl, ?_⟩))
    simp [regTable, List.lookup_eq_none_iff] at hl
    omega

/-- Nothing lies at the reserved offsets (R84). -/
theorem regAt_reserved {off : Nat} (ha : off % 4 = 0)
    (hr : off = 0x03C ∨ (0x064 ≤ off ∧ off ≤ 0x0FC) ∨ off = 0x3FC) : regAt off = .reserved := by
  rcases regAt_cases ha (by omega) with ht | ⟨h, -⟩ | ⟨h, -⟩ | ⟨h, -⟩
  · simp [regTable] at ht
    omega
  · omega
  · omega
  · exact h

/-! ## One host access -/

section
variable {s : State} {off : Nat} {v : Word}

theorem State.turn_write (ha : off % 4 = 0) (hw : off < 0x400) : s.turn (.write off 4 v) = s.hostWrite off v :=
  accessChecked_pass ha hw

theorem State.turn_read (ha : off % 4 = 0) (hw : off < 0x400) : s.turn (.read off 4) = .next (s.hostRead off) :=
  accessChecked_pass ha hw

/-- R87's order, with the two registers it asks for first named by their offsets. -/
theorem State.hostWrite_eq :
    s.hostWrite off v =
      if off = 0x008 ∧ v.getLsbD 31 = true then .next s.resetBlock
      else if off = 0x010 then .next (s.clearErr (v.extractLsb' 0 9))
      else if s.busy = true then .next (s.raise .busyWr)
      else s.writeReg v (regAt off) := by
  simp only [State.hostWrite, regAt_eq_ctrl, regAt_eq_err]

/-- A write that neither resets nor clears `ERR` is dropped while a command executes (60_exceptions.md R263). -/
theorem State.hostWrite_busy (hb : s.busy = true) (hreset : ¬ (off = 0x008 ∧ v.getLsbD 31 = true))
    (herr : off ≠ 0x010) : s.hostWrite off v = .next (s.raise .busyWr) := by
  rw [State.hostWrite_eq, if_neg hreset, if_neg herr, if_pos hb]

/-- With `BUSY = 0` a write reaches its register, but for the reset and the `ERR` clear. -/
theorem State.hostWrite_idle (hb : s.busy = false) (hreset : ¬ (off = 0x008 ∧ v.getLsbD 31 = true))
    (herr : off ≠ 0x010) : s.hostWrite off v = s.writeReg v (regAt off) := by
  rw [State.hostWrite_eq, if_neg hreset, if_neg herr, if_neg (Bool.eq_false_iff.mp hb)]

/-- A locked register's write, in both modes (10_state.md R33). -/
theorem State.next_locking (write : State → State) :
    (.next (s.locking write) : Out) = if s.mode = .running then .next (s.raise .locked) else .next (write s) := by
  unfold State.locking
  split <;> rfl

theorem State.setCoef_eq (i : Fin 64) : s.setCoef i v = { s with coef := s.coef.setIfInBounds i v } := by
  simp [State.setCoef, Vector.setIfInBounds, Vector.set, Array.setIfInBounds]

theorem State.pop_nil (h : s.fifo = []) : s.pop = (0, s.raise .underflow) := by
  simp [State.pop, h]

theorem State.pop_cons {w : Word} {ws : List Word} (h : s.fifo = w :: ws) : s.pop = (w, { s with fifo := ws }) := by
  simp [State.pop, h]

/-- A read of anything but `OUT_DATA` returns the register's value (R86, R88). -/
theorem State.hostRead_of_ne (ho : off ≠ 0x01C) : s.hostRead off = s.setRdata (s.readReg (regAt off)) := by
  rcases s.hostRead_spec off with ⟨-, h⟩ | ⟨h, -⟩
  · exact h
  · exact absurd h ho

theorem State.hostRead_rdata (ho : off ≠ 0x01C) : (s.hostRead off).rdata = s.readReg (regAt off) := by
  rw [State.hostRead_of_ne ho, State.setRdata_rdata]

theorem State.hostRead_outData : s.hostRead 0x01C = s.pop.2.setRdata s.pop.1 := rfl

end

/-! ## The statements -/

/-- Settles O43: the first three lines of R87 are `hostWrite_eq`; below them the write does what the register at the
offset does with it, by the cases of the map. -/
theorem hostWriteFollowsTheMap : Obligations.HostWriteFollowsTheMap := by
  unfold Obligations.HostWriteFollowsTheMap
  intro s off v ha hw
  rw [State.turn_write ha hw, State.hostWrite_eq]
  refine if_congr Iff.rfl rfl (if_congr Iff.rfl rfl (if_congr Iff.rfl rfl ?_))
  rcases regAt_cases ha hw with ht | ⟨h, hr⟩ | ⟨h, hr⟩ | ⟨hr, h⟩
  · generalize regAt off = r at ht ⊢
    cases r <;> simp [regTable] at ht <;> subst ht
    case ctrl | rate => exact State.next_locking _
    all_goals rfl
  · simp (disch := omega) only [hr, State.writeReg, State.next_locking, State.setCoef_eq, if_neg, if_pos]
    rfl
  · simp (disch := omega) only [hr, State.writeReg, if_neg]
  · simp (disch := omega) only [hr, State.writeReg, if_neg]

/-- Settles O44: a read of `OUT_DATA` is a pop; any other read returns the number of the register at the offset, by the
cases of the map. -/
theorem hostReadFollowsTheMap : Obligations.HostReadFollowsTheMap := by
  unfold Obligations.HostReadFollowsTheMap
  intro s off hp ha hw
  refine ⟨_, State.turn_read ha hw, ?_, ?_, ?_⟩
  · intro ho
    rw [State.hostRead_of_ne ho]
    rfl
  · rintro rfl
    rw [State.hostRead_outData]
    exact ⟨fun hf => by rw [State.pop_nil hf]; rfl, fun w ws hf => by rw [State.pop_cons hf]; rfl⟩
  · intro ho hf
    rw [State.hostRead_rdata ho]
    rcases regAt_cases ha hw with ht | ⟨h, hr⟩ | ⟨h, hr⟩ | ⟨hr, h⟩
    · generalize regAt off = r at ht ⊢
      cases r <;> simp [regTable] at ht <;> subst ht
      case param =>
        obtain ⟨-, hc, -, hd⟩ := hp
        exact State.readReg_param_toNat hc hd
      case outCount =>
        obtain ⟨-, -, -, hd⟩ := hp
        exact Nat.mod_eq_of_lt (by omega)
      case ctrl => exact (BitVec.toNat_setWidth_of_le (by decide)).trans (BitVec.toNat_ofBool _)
      case status => exact s.statusWord_toNat
      case chunk => exact toNat_append_eq_add _ _
      case outData => exact absurd rfl ho
      case rate | err | widx | kovr | k | fom | mfrac | tstat => exact BitVec.toNat_setWidth_of_le (by decide)
      all_goals rfl
    · simp (disch := omega) only [hr, State.readReg, if_neg, if_pos]
      exact congrArg BitVec.toNat (vector_toList_getD s.coef _).symm
    · simp (disch := omega) only [hr, State.readReg, if_neg, if_pos]
      exact congrArg BitVec.toNat (vector_toList_getD s.dl _).symm
    · simp (disch := omega) only [hr, State.readReg, if_neg]
      rfl

/-- Settles O46: nothing lies at the reserved offsets, and a register keeps of a written word the bits it has. -/
theorem reservedPlacesReadZero : Obligations.ReservedPlacesReadZero := by
  unfold Obligations.ReservedPlacesReadZero
  refine ⟨fun s off v ha hr => ?_, fun s v hb hm hv => ?_, fun s v hb hm => ?_, fun s v hb => ?_⟩
  · have hw : off < 0x400 := by omega
    have hreg := regAt_reserved ha hr
    have hreset : ¬ (off = 0x008 ∧ v.getLsbD 31 = true) := fun h => absurd h.1 (by omega)
    rw [State.turn_read ha hw, State.turn_write ha hw]
    refine ⟨?_, fun hb => ?_, fun hb => ?_⟩
    · rw [State.hostRead_of_ne (by omega), hreg]
      rfl
    · rw [State.hostWrite_idle hb hreset (by omega), hreg]
      rfl
    · rw [State.hostWrite_busy hb hreset (by omega)]
      rfl
  · refine ⟨{ s with stereo := v.getLsbD 0 }, ?_, ?_⟩
    · rw [State.turn_write rfl (by decide), State.hostWrite_idle hb (by rw [hv]; decide) (by decide)]
      exact (State.next_locking _).trans (if_neg hm)
    · refine (State.hostRead_rdata (by decide)).trans ?_
      exact (congrArg (BitVec.setWidth 32) (ofBool_getLsbD_zero v)).trans (setWidth_extractLsb'_eq_and v 1)
  · refine ⟨{ s with rate := v.extractLsb' 0 24 }, ?_,
      (State.hostRead_rdata (by decide)).trans (setWidth_extractLsb'_eq_and v 24)⟩
    rw [State.turn_write rfl (by decide), State.hostWrite_idle hb (by simp) (by decide)]
    exact (State.next_locking _).trans (if_neg hm)
  · refine ⟨{ s with kovr := v.extractLsb' 0 8 }, ?_,
      (State.hostRead_rdata (by decide)).trans (setWidth_extractLsb'_eq_and v 8)⟩
    rw [State.turn_write rfl (by decide), State.hostWrite_idle hb (by simp) (by decide)]
    rfl

end Sys2Proof.Machine
end

section
/-! The decoder and the encoder: what `decode` answers on each row of the opcode map, that it inverts `encode`, which
words are illegal, and what the pseudo-instructions expand to (30_encoding.md R110 to R119). -/

namespace Sys2Proof

/-! ## A word and its fields -/

/-- A word is its three fields side by side (R110). -/
theorem word_eq_fields (v : Word) : v = opField v ++ rsvField v ++ nField v := by
  have hhigh : opField v ++ rsvField v = v.extractLsb' 16 16 :=
    BitVec.extractLsb'_append_extractLsb'_eq_extractLsb' rfl
  have hall : v.extractLsb' 16 16 ++ nField v = v.extractLsb' 0 32 :=
    BitVec.extractLsb'_append_extractLsb'_eq_extractLsb' rfl
  rw [hhigh, hall, BitVec.extractLsb'_eq_self]

theorem eq_word_of_fields {v : Word} {op rsv : BitVec 8} {n : BitVec 16} (ho : opField v = op) (hr : rsvField v = rsv)
    (hn : nField v = n) : op ++ rsv ++ n = v := by
  rw [← ho, ← hr, ← hn, ← word_eq_fields]

/-- Bits 23:0 are 0 iff the two fields below the opcode are. -/
theorem low24_eq_zero_iff (v : Word) : v.extractLsb' 0 24 = 0 ↔ rsvField v = 0 ∧ nField v = 0 := by
  have hsplit : rsvField v ++ nField v = v.extractLsb' 0 24 :=
    BitVec.extractLsb'_append_extractLsb'_eq_extractLsb' rfl
  refine ⟨fun h => ?_, fun ⟨hr, hn⟩ => ?_⟩
  · rw [h] at hsplit
    exact ⟨BitVec.extractLsb'_append_eq_left.symm.trans (congrArg (BitVec.extractLsb' 16 8) hsplit),
      BitVec.extractLsb'_append_eq_right.symm.trans (congrArg (BitVec.extractLsb' 0 16) hsplit)⟩
  · rw [← hsplit, hr, hn]
    rfl

/-! ## Commands as rows of the opcode map -/

/-- A command without an operand: its row of the opcode map fixes every bit of the word (R112). -/
def Instr.isBare (i : Instr) : Prop := i.mask = 0xFFFFFFFF

theorem Instr.isBare_iff (i : Instr) : i.isBare ↔ i = .nop ∨ i = .init ∨ i = .halt ∨ i = .tune := by
  cases i <;> simp [Instr.isBare, Instr.mask]

theorem Instr.wellFormed_of_isBare {i : Instr} (h : i.isBare) : i.wellFormed = true := by
  rcases i.isBare_iff.mp h with rfl | rfl | rfl | rfl <;> rfl

theorem Instr.wellFormed_prod {n : Nat} : (Instr.prod n).wellFormed = true ↔ n ≤ 65535 := by
  simp [Instr.wellFormed]

/-- The commands that the encoding can hold are the five of R112. -/
theorem Instr.eq_of_wellFormed {i : Instr} (h : i.wellFormed = true) :
    i = .nop ∨ i = .init ∨ (∃ n, n ≤ 65535 ∧ i = .prod n) ∨ i = .halt ∨ i = .tune := by
  cases i with
  | prod n => exact .inr (.inr (.inl ⟨n, Instr.wellFormed_prod.mp h, rfl⟩))
  | nop | init | halt | tune => simp

/-- The word of a command without an operand is its opcode over 24 bits of 0. -/
theorem encode_of_isBare {i : Instr} (h : i.isBare) : encode i = i.op ++ (0 : BitVec 8) ++ (0 : BitVec 16) := by
  rcases i.isBare_iff.mp h with rfl | rfl | rfl | rfl <;> rfl

/-- Every command's word selects its own row (R112). -/
theorem encode_matches (i : Instr) : Laws.EncodeMatch.Statement i := by
  cases i with
  | nop => exact Laws.EncodeMatch.nop
  | init => exact Laws.EncodeMatch.init
  | prod n => exact Laws.EncodeMatch.prod n
  | halt => exact Laws.EncodeMatch.halt
  | tune => exact Laws.EncodeMatch.tune

theorem nField_encode_prod {n : Nat} (h : n ≤ 65535) : nField (encode (.prod n)) = BitVec.ofNat 16 n := by
  rw [Laws.EncodeMatch.encode_prod h]
  exact BitVec.extractLsb'_append_eq_right

/-! ## What the decoder answers, row by row -/

section
variable {v : Word}

theorem decode_of_isBare {i : Instr} (ho : opField v = i.op) (hi : i.isBare) : decode v = decodeBare i v := by
  rcases i.isBare_iff.mp hi with rfl | rfl | rfl | rfl <;> simp [decode, ho, Instr.op]

theorem decode_of_opField_prod (ho : opField v = 0x02) :
    decode v = if rsvField v = 0 then .command (.prod (nField v).toNat) else .illegal .reservedBits := by
  simp only [decode, ho, if_true]

theorem decode_of_unassigned (ho : 5 ≤ (opField v).toNat) : decode v = .illegal .unassignedOp := by
  have hne : ∀ k : BitVec 8, k.toNat < 5 → opField v ≠ k := fun k hk h => by rw [h] at ho; omega
  simp (disch := decide) only [decode, hne, if_false]

/-- Every opcode is a bare command's, `PROD`'s or unassigned (R112, R113). -/
theorem opField_cases (v : Word) :
    (∃ i : Instr, i.isBare ∧ opField v = i.op) ∨ opField v = 0x02 ∨ 5 ≤ (opField v).toNat := by
  by_cases hlow : 5 ≤ (opField v).toNat
  · exact .inr (.inr hlow)
  have hop : opField v = BitVec.ofNat 8 (opField v).toNat := by simp
  interval_cases (opField v).toNat
  · exact .inl ⟨.nop, rfl, hop⟩
  · exact .inl ⟨.init, rfl, hop⟩
  · exact .inr (.inl hop)
  · exact .inl ⟨.halt, rfl, hop⟩
  · exact .inl ⟨.tune, rfl, hop⟩

/-! ## Decode and encode invert each other -/

theorem decode_encode {i : Instr} (h : i.wellFormed = true) : decode (encode i) = .command i := by
  obtain ⟨-, hop, hrsv, hn⟩ := encode_matches i h
  cases i with
  | prod n =>
    have hle : n ≤ 65535 := Instr.wellFormed_prod.mp h
    rw [decode_of_opField_prod hop, if_pos hrsv, nField_encode_prod hle, BitVec.toNat_ofNat,
      Nat.mod_eq_of_lt (by omega)]
  | nop | init | halt | tune => rw [decode_of_isBare hop rfl, decodeBare, if_pos ⟨hrsv, hn rfl⟩]

theorem encode_of_decode {i : Instr} (h : decode v = .command i) : encode i = v ∧ i.wellFormed = true := by
  rcases opField_cases v with ⟨j, hj, hop⟩ | hop | hop
  · rw [decode_of_isBare hop hj, decodeBare] at h
    split at h
    · next hz =>
      cases h
      obtain ⟨hrsv, hn⟩ := hz
      exact ⟨(encode_of_isBare hj).trans (eq_word_of_fields hop hrsv hn), Instr.wellFormed_of_isBare hj⟩
    · cases h
  · rw [decode_of_opField_prod hop] at h
    split at h
    · next hrsv =>
      cases h
      have hle : (nField v).toNat ≤ 65535 := Nat.le_of_lt_succ (nField v).isLt
      have hn : nField v = BitVec.ofNat 16 (nField v).toNat := by simp
      exact ⟨(Laws.EncodeMatch.encode_prod hle).trans (eq_word_of_fields hop hrsv hn), Instr.wellFormed_prod.mpr hle⟩
    · cases h
  · rw [decode_of_unassigned hop] at h
    cases h

/-! ## The illegal words -/

theorem exists_illegal_of_ite {p : Prop} [Decidable p] {i : Instr} :
    (∃ why, (if p then Decoded.command i else .illegal .reservedBits) = .illegal why) ↔ ¬ p := by
  split <;> simp [*]

/-- R113's illegal words, by the fields of the word. -/
theorem decode_illegal_iff (v : Word) :
    (∃ why, decode v = .illegal why) ↔
      5 ≤ (opField v).toNat ∨
      ((opField v = 0x00 ∨ opField v = 0x01 ∨ opField v = 0x03 ∨ opField v = 0x04) ∧ v.extractLsb' 0 24 ≠ 0) ∨
      (opField v = 0x02 ∧ rsvField v ≠ 0) := by
  rcases opField_cases v with ⟨i, hi, hop⟩ | hop | hop
  · rw [decode_of_isBare hop hi, decodeBare, exists_illegal_of_ite, ← low24_eq_zero_iff, hop]
    rcases i.isBare_iff.mp hi with rfl | rfl | rfl | rfl <;> simp [Instr.op]
  · rw [decode_of_opField_prod hop, exists_illegal_of_ite, hop]
    simp
  · simp [decode_of_unassigned hop, hop]

/-- R113: "every word is either one of the five commands or illegal". -/
theorem exists_command_of_not_illegal (h : ¬ ∃ why, decode v = .illegal why) : ∃ i, decode v = .command i := by
  cases hd : decode v with
  | command i => exact ⟨i, rfl⟩
  | illegal why => exact absurd ⟨why, hd⟩ h

end

end Sys2Proof

namespace Sys2Proof.Machine

/-! ## Writing a word to `CMD` -/

/-- A write to `CMD` with `BUSY = 0` issues the word (40_sequencer.md R131). -/
theorem State.hostWrite_cmd {s : State} {v : Word} (hb : s.busy = false) : s.hostWrite 0x014 v = s.issue v :=
  State.hostWrite_idle hb (by simp) (by decide)

theorem State.issue_illegal {s : State} {v : Word} {why : Reject} (h : decode v = .illegal why) :
    s.issue v = .next (s.raise .illegal) := by
  simp only [State.issue, h]

/-! ## The counts of a `PRODN` -/

/-- The counts of the `PROD` commands that `PRODN n` stands for (R119). -/
def prodCounts (n : Nat) : List Nat :=
  List.replicate (n / 65535) 65535 ++ (if n % 65535 = 0 then [] else [n % 65535])

/-- `PRODN` is one `PROD` and one `WAIT` per count. -/
theorem prodNTurns_eq (n : Nat) :
    prodNTurns n = ((prodCounts n).map fun m => [cmdTurn (.prod m), .wait]).flatten := by
  unfold prodNTurns prodCounts
  rw [List.map_append, List.flatten_append, List.map_replicate]
  split <;> rfl

theorem prodCounts_sum (n : Nat) : (prodCounts n).sum = n := by
  have hrest : (if n % 65535 = 0 then [] else [n % 65535]).sum = n % 65535 := by
    split <;> simp [*]
  rw [prodCounts, List.sum_append, hrest, List.sum_replicate, smul_eq_mul, Nat.div_add_mod']

/-- Each count is that of a command that is not empty and that the encoding can hold (R111). -/
theorem prodCounts_bounds {n m : Nat} (h : m ∈ prodCounts n) : 1 ≤ m ∧ m ≤ 65535 := by
  rcases List.mem_append.mp h with hm | hm
  · obtain rfl := List.eq_of_mem_replicate hm
    decide
  · split at hm
    · cases hm
    · obtain rfl := List.mem_singleton.mp hm
      omega

/-! ## The statements -/

/-- Settles O2: the words of the rule are `encode`'s own equations; the two inverses are `decode_encode` and
`encode_of_decode`, both by the rows of the opcode map. -/
theorem decodeInvertsEncode : Obligations.DecodeInvertsEncode := by
  unfold Obligations.DecodeInvertsEncode
  exact ⟨⟨rfl, rfl, rfl, rfl, fun _ _ => rfl⟩, fun _ => decode_encode, fun _ _ => encode_of_decode⟩

/-- Settles O3: the illegal words row by row; any other word decodes to a command, which `encode_of_decode` makes
well-formed; an illegal word's issue only raises `E_ILLEGAL`. -/
theorem illegalWordsAreExactlyTheReservedOnes : Obligations.IllegalWordsAreExactlyTheReservedOnes := by
  unfold Obligations.IllegalWordsAreExactlyTheReservedOnes
  refine ⟨decode_illegal_iff, fun v hv => ?_, fun s v hb hv => ?_⟩
  · obtain ⟨i, hi⟩ := exists_command_of_not_illegal hv
    obtain ⟨-, hwf⟩ := encode_of_decode hi
    exact ⟨i, hi, Instr.eq_of_wellFormed hwf⟩
  · obtain ⟨why, hd⟩ := hv
    rw [State.hostWrite_cmd hb, State.issue_illegal hd]
    rfl

/-- Settles O60: `SETCOEF` and `DRAIN` by their equations; `PRODN` by `prodCounts`, whose `PROD`s and `WAIT`s are its
turns. -/
theorem pseudoInstructionsExpand : Obligations.PseudoInstructionsExpand := by
  unfold Obligations.PseudoInstructionsExpand
  refine ⟨fun _ _ _ => rfl, fun _ => rfl, ?_⟩
  rintro n _ - rfl
  exact ⟨prodNTurns_eq n, prodCounts_sum n, fun _ => prodCounts_bounds⟩

end Sys2Proof.Machine
end

section
/-! Issuing a command: what a write to `CMD` does with a legal and with an illegal word, and `NOP` and `HALT` as whole
commands (40_sequencer.md R131, R132, R135, R136). -/

namespace Sys2Proof

/-- The opcode of a word that decodes is that of its command (R112). -/
theorem opField_of_decode {v : Word} {i : Instr} (h : decode v = .command i) : opField v = i.op := by
  obtain ⟨hv, hwf⟩ := encode_of_decode h
  obtain ⟨-, hop, -⟩ := encode_matches i hwf
  rwa [hv] at hop

/-- The opcode of a command without an operand over 24 bits that are not all 0 is no command (R113). -/
theorem decode_bare_append {i : Instr} (hi : i.isBare) {x : BitVec 24} (hx : x ≠ 0) :
    decode (i.op ++ x) = .illegal .reservedBits := by
  have hop : opField (i.op ++ x) = i.op := BitVec.extractLsb'_append_eq_left
  have hlow : (i.op ++ x).extractLsb' 0 24 = x := BitVec.extractLsb'_append_eq_right
  rw [decode_of_isBare hop hi, decodeBare, if_neg]
  rwa [← low24_eq_zero_iff, hlow]

end Sys2Proof

namespace Sys2Proof.Machine

/-! ## The three fates of a word written to `CMD` -/

section
variable {s : State} {v : Word}

/-- R131: while a command executes, the word is never issued. -/
theorem State.hostWrite_cmd_busy (hb : s.busy = true) : s.hostWrite 0x014 v = .next (s.raise .busyWr) :=
  State.hostWrite_busy hb (by simp) (by decide)

theorem State.hostWrite_cmd_illegal {why : Reject} (hb : s.busy = false) (h : decode v = .illegal why) :
    s.hostWrite 0x014 v = .next (s.raise .illegal) := by
  rw [State.hostWrite_cmd hb, State.issue_illegal h]

theorem State.hostWrite_cmd_command {i : Instr} (hb : s.busy = false) (h : decode v = .command i) :
    s.hostWrite 0x014 v = exec i s := by
  rw [State.hostWrite_cmd hb]
  simp only [State.issue, h]

/-- R113 and R131 for the commands without an operand: a bit of 23:0 set only raises `E_ILLEGAL`. -/
theorem State.hostWrite_cmd_bare_append {i : Instr} (hi : i.isBare) {x : BitVec 24} (hb : s.busy = false) (hx : x ≠ 0) :
    s.hostWrite 0x014 (i.op ++ x) = .next (s.raise .illegal) :=
  State.hostWrite_cmd_illegal hb (decode_bare_append hi hx)

/-- Every command but `PROD` is accepted in every `MODE` (R131, R132). -/
theorem exec_idle_of_ne_prod {i : Instr} (hb : s.busy = false) (hi : ∀ n, i ≠ .prod n) :
    exec i s = .next (s.accept i.op 0) := by
  cases i with
  | nop => exact execNop_idle hb
  | init => exact execInit_idle hb
  | prod n => exact absurd rfl (hi n)
  | halt => exact execHalt_idle hb
  | tune => exact execTune_idle hb

end

/-! ## The statements -/

/-- Settles O7: the word meets `BUSY = 1`, is illegal, or is issued; an issued `PROD` asks for `RUNNING`, any other
command for nothing, and `CUR_OP` is then the opcode of the word (`opField_of_decode`). -/
theorem issueAcceptsByModeAndWord : Obligations.IssueAcceptsByModeAndWord := by
  unfold Obligations.IssueAcceptsByModeAndWord
  refine fun s v => ⟨fun hb => State.hostWrite_cmd_busy hb, fun hb =>
    ⟨fun why hd => State.hostWrite_cmd_illegal hb hd, fun n hd => ?_, fun i hd hi => ?_⟩⟩
  · have hissue : s.hostWrite 0x014 v =
        if s.mode = .running then .next (s.accept 0x02 (BitVec.ofNat 16 n)) else .next (s.raise .badState) :=
      (State.hostWrite_cmd_command hb hd).trans (execProd_idle n hb)
    have hop : opField v = 0x02 := opField_of_decode hd
    refine ⟨fun hm => hissue.trans (if_neg hm), fun hm => ?_⟩
    rw [hissue, if_pos hm, ← hop]
    rfl
  · rw [State.hostWrite_cmd_command hb hd, exec_idle_of_ne_prod hb hi, ← opField_of_decode hd]
    rfl

/-- Settles O8: `NOP`'s step, its issue, and its opcode with a reserved bit set. -/
theorem nopOnlyCompletes : Obligations.NopOnlyCompletes := by
  unfold Obligations.NopOnlyCompletes
  refine ⟨rfl, fun s hb => ?step, fun s hb => ?issue, fun s x hb hx => ?reserved⟩
  case step => exact execNop_busy hb
  case issue => exact execNop_idle hb
  case reserved => exact State.hostWrite_cmd_bare_append (i := .nop) rfl hb hx

/-- Settles O9: `HALT`'s step, its issue, its refusal while a command executes, and its opcode with a reserved bit set. -/
theorem haltGoesIdleAndKeepsTheRest : Obligations.HaltGoesIdleAndKeepsTheRest := by
  unfold Obligations.HaltGoesIdleAndKeepsTheRest
  refine ⟨rfl, fun s hb => ?step, fun s hb => ?issue, fun s hb => ?busy, fun s x hb hx => ?reserved⟩
  case step => exact execHalt_busy hb
  case issue => exact execHalt_idle hb
  case busy => exact State.hostWrite_cmd_busy hb
  case reserved => exact State.hostWrite_cmd_bare_append (i := .halt) rfl hb hx

end Sys2Proof.Machine
end

section
/-! The divider selector: a candidate's validity and figure of merit in rational numbers, what the search chooses, and
the step of `TUNE` in each of its cases (41_pll_selector.md R150 to R160). -/

namespace Sys2Proof.Machine

/-! ## One candidate -/

theorem floorDiv_eq_floor (a : ℤ) (b : ℕ) : floorDiv a b = ⌊(a : ℚ) / b⌋ := by
  rw [floorDiv, Int.fdiv_eq_ediv_of_nonneg a (Int.natCast_nonneg b), Rat.floor_intCast_div_natCast]

theorem TuneIn.multAt_eq_floor (t : TuneIn) (f : ℤ) (k : ℕ) : t.multAt f k = ⌊((f : ℚ) * k) / t.fref⌋ := by
  rw [TuneIn.multAt, floorDiv_eq_floor]
  push_cast
  rfl

/-- R155's limit and R157's swing test. -/
theorem TuneIn.valid_iff (t : TuneIn) (k : Nat) :
    t.valid k = true ↔
      k * t.fc < Config.vcoMax ∧
        t.multAt ((t.fc : Int) - Config.guardHz - t.dev) k = t.multAt ((t.fc : Int) + Config.guardHz + t.dev) k := by
  simp only [TuneIn.valid, TuneIn.underVco, TuneIn.swingOk, Bool.and_eq_true, decide_eq_true_eq, beq_iff_eq]

/-- R158's interval in integers: `r / d` lies in `[1/5, 4/5]`. -/
theorem fraction_in_fifths_iff {r d : ℕ} (hd : 0 < d) :
    ((1 / 5 : ℚ) ≤ (r : ℚ) / d ∧ (r : ℚ) / d ≤ 4 / 5) ↔ d ≤ 5 * r ∧ 5 * r ≤ 4 * d := by
  have hd' : (0 : ℚ) < d := Nat.cast_pos.mpr hd
  rw [div_le_div_iff₀ (by norm_num) hd', div_le_div_iff₀ hd' (by norm_num), one_mul, mul_comm (r : ℚ) 5]
  norm_cast

/-- R158: the point is given by the fractional part of the multiplier. -/
theorem TuneIn.fractionPoint_eq (t : TuneIn) (k : ℕ) (hf : 0 < t.fref) :
    t.fractionPoint k =
      if (1 / 5 : ℚ) ≤ Int.fract ((k * t.fc : ℚ) / t.fref) ∧ Int.fract ((k * t.fc : ℚ) / t.fref) ≤ 4 / 5
        then 1 else 0 := by
  have hfract : Int.fract ((k * t.fc : ℚ) / t.fref) = ((k * t.fc % t.fref : ℕ) : ℚ) / t.fref := by
    rw [← Int.fract_div_natCast_eq_div_natCast_mod, Nat.cast_mul]
  simp only [TuneIn.fractionPoint, hfract, fraction_in_fifths_iff hf]

/-! ## The search -/

/-- R154, R160: with a valid candidate the search ends at the first of those with the highest figure. -/
theorem TuneIn.search_of_exists_valid (t : TuneIn) (h : ∃ k, 2 ≤ k ∧ k < 50 ∧ t.valid k = true) :
    ∃ k, 2 ≤ k ∧ k < 50 ∧ t.valid k = true ∧
      (∀ j, 2 ≤ j → j < 50 → t.valid j = true → t.figure j ≤ t.figure k) ∧
      (∀ j, 2 ≤ j → j < k → t.valid j = true → t.figure j < t.figure k) ∧
      t.search = (k, (t.figure k : Int)) := by
  obtain ⟨i, hi2, hi50, hiv⟩ := h
  rcases t.search_found with ⟨-, hnone⟩ | ⟨hmem, hvalid, hfig, hbest, hfirst⟩
  · rw [hnone i (mem_candidates.mpr ⟨hi2, hi50⟩)] at hiv
    cases hiv
  · obtain ⟨hk2, hk50⟩ := mem_candidates.mp hmem
    refine ⟨t.search.1, hk2, hk50, hvalid, fun j hj2 hj50 => ?_, fun j hj2 hjk => ?_, Prod.ext rfl hfig⟩
    · exact hbest j (mem_candidates.mpr ⟨hj2, hj50⟩)
    · exact hfirst j (mem_candidates.mpr ⟨hj2, by omega⟩) hjk

/-! ## The step of `TUNE`, case by case (R151) -/

section
variable {s : State}

theorem State.tuneStep_of_fref_zero (hf : s.fref = 0) :
    s.tuneStep = ((s.setTune 0 0 true false).raise .cfg).complete := by
  rw [State.tuneStep, if_pos hf]

theorem State.tuneStep_of_override (hf : s.fref ≠ 0) (ho : s.kovr ≠ 0) :
    s.tuneStep = (s.setTune s.kovr.toNat 0 false true).complete := by
  rw [State.tuneStep, if_neg hf, if_pos ho]

theorem State.tuneStep_of_not_found (hf : s.fref ≠ 0) (ho : s.kovr = 0) (hb : s.tuneIn.search.1 = 0) :
    s.tuneStep = ((s.setTune 0 0 true false).raise .noDiv).complete := by
  rw [State.tuneStep, if_neg hf, if_neg (not_not.mpr ho), if_pos hb]

theorem State.tuneStep_of_found (hf : s.fref ≠ 0) (ho : s.kovr = 0) (hb : s.tuneIn.search.1 ≠ 0) :
    s.tuneStep = (s.setTune s.tuneIn.search.1 s.tuneIn.search.2.toNat false false).complete := by
  rw [State.tuneStep, if_neg hf, if_neg (not_not.mpr ho), if_neg hb]

end

/-- The step of `TUNE` as one update: what `SetTune` is given, and the error bits `e` added to `ERR`. -/
def State.tuneWith (k fom : Nat) (fail ovr : Bool) (e : BitVec 9) (s : State) : State :=
  { (s.setTune k fom fail ovr).complete with err := s.err ||| e }

theorem State.complete_setTune (s : State) (k fom : Nat) (fail ovr : Bool) :
    (s.setTune k fom fail ovr).complete = s.tuneWith k fom fail ovr 0 := by
  have herr : s.err ||| 0 = s.err := BitVec.or_zero
  rw [State.tuneWith, herr]
  rfl

/-- R150: the inputs fix the update; every state with the same inputs takes it. -/
theorem State.tuneStep_eq_tuneWith (s : State) :
    ∃ (k fom : Nat) (fail ovr : Bool) (e : BitVec 9), (e = 0 ∨ e = Cause.cfg.bit ∨ e = Cause.noDiv.bit) ∧
      ∀ t : State, t.fref = s.fref → t.kovr = s.kovr → t.tuneIn = s.tuneIn →
        t.tuneStep = t.tuneWith k fom fail ovr e := by
  by_cases hf : s.fref = 0
  · refine ⟨0, 0, true, false, Cause.cfg.bit, .inr (.inl rfl), fun t htf _ _ => ?_⟩
    exact State.tuneStep_of_fref_zero (htf.trans hf)
  by_cases ho : s.kovr = 0
  · by_cases hb : s.tuneIn.search.1 = 0
    · refine ⟨0, 0, true, false, Cause.noDiv.bit, .inr (.inr rfl), fun t htf hto hti => ?_⟩
      exact State.tuneStep_of_not_found (htf ▸ hf) (hto.trans ho) (hti ▸ hb)
    · refine ⟨s.tuneIn.search.1, s.tuneIn.search.2.toNat, false, false, 0, .inl rfl, fun t htf hto hti => ?_⟩
      rw [State.tuneStep_of_found (htf ▸ hf) (hto.trans ho) (hti ▸ hb), hti, State.complete_setTune]
  · refine ⟨s.kovr.toNat, 0, false, true, 0, .inl rfl, fun t htf hto _ => ?_⟩
    rw [State.tuneStep_of_override (htf ▸ hf) (hto ▸ ho), hto, State.complete_setTune]

/-! ## The statements -/

/-- Settles O34: `valid_iff` with each floor taken of the rational number (`multAt_eq_floor`). -/
theorem validMeansVcoLimitAndSwing : Obligations.ValidMeansVcoLimitAndSwing := by
  unfold Obligations.ValidMeansVcoLimitAndSwing
  intro t k _
  rw [TuneIn.valid_iff, TuneIn.multAt_eq_floor, TuneIn.multAt_eq_floor]
  push_cast
  rfl

/-- Settles O35: the bands are the model's own; the fraction is that of `fractionPoint_eq`. -/
theorem figureCountsThePoints : Obligations.FigureCountsThePoints := by
  unfold Obligations.FigureCountsThePoints
  intro t k hf
  refine ⟨?_, t.figure_le k⟩
  rw [TuneIn.figure, TuneIn.fractionPoint_eq t k hf]
  rfl

/-- Settles O36: the search ends at the first of the best, which is not 0, so the step writes it. -/
theorem tuneChoosesTheFirstBest : Obligations.TuneChoosesTheFirstBest := by
  unfold Obligations.TuneChoosesTheFirstBest
  intro s hb hf ho hex
  obtain ⟨k, hk2, hk50, hvalid, hbest, hfirst, hsearch⟩ := s.tuneIn.search_of_exists_valid hex
  refine ⟨k, hk2, hk50, hvalid, hbest, hfirst, (execTune_busy hb).trans ?_⟩
  have hne : s.tuneIn.search.1 ≠ 0 := by rw [hsearch]; exact Nat.ne_zero_of_lt hk2
  rw [State.tuneStep_of_found hf ho hne, hsearch]
  rfl

/-- Settles O40: both states take the update that the inputs fix (`tuneStep_eq_tuneWith`), and its results read
nothing of the state but the inputs. -/
theorem tuneIsAFunctionOfItsInputs : Obligations.TuneIsAFunctionOfItsInputs := by
  unfold Obligations.TuneIsAFunctionOfItsInputs
  intro s t hs ht hfc hdev hfref hkovr
  have hin : t.tuneIn = s.tuneIn := by simp only [State.tuneIn, hfc, hdev, hfref]
  obtain ⟨k, fom, fail, ovr, e, he, hstep⟩ := s.tuneStep_eq_tuneWith
  refine ⟨s.tuneWith k fom fail ovr e, t.tuneWith k fom fail ovr e, ?_, ?_, rfl, rfl, ?_, ?_, rfl,
    ⟨e, he, rfl, rfl⟩, rfl⟩
  · exact (execTune_busy hs).trans (congrArg _ (hstep s rfl rfl rfl))
  · exact (execTune_busy ht).trans (congrArg _ (hstep t hfref.symm hkovr.symm hin))
  · simp only [State.tuneWith, State.complete_mint, State.setTune_mint, hin]
  · simp only [State.tuneWith, State.complete_mfrac, State.setTune_mfrac, hin]

/-- Settles O38: the first case of the step. -/
theorem tuneNeedsAReference : Obligations.TuneNeedsAReference := by
  unfold Obligations.TuneNeedsAReference
  intro s hb hf
  refine (execTune_busy hb).trans ?_
  rw [State.tuneStep_of_fref_zero hf]
  rfl

/-- Settles O39: the second case of the step; `KOVR` and the product's quotient are read back as words. -/
theorem tuneTrustsTheOverride : Obligations.TuneTrustsTheOverride := by
  unfold Obligations.TuneTrustsTheOverride
  intro s hb hf ho
  have hk : BitVec.ofNat 8 s.kovr.toNat = s.kovr := by simp
  have hword : ∀ n : Nat, BitVec.ofNat 32 (n % 2 ^ 32) = BitVec.ofNat 32 n := fun n => by
    simp [← BitVec.toNat_inj]
  refine (execTune_busy hb).trans ?_
  rw [State.tuneStep_of_override hf ho, hword, State.setTune, hk]
  rfl

end Sys2Proof.Machine
end

section
/-! The upsampler: the two source requests by the attached source, a refill and a frame advance case by case, the filter
input, and how a file loops (42_upsampler.md R184 to R197). -/

namespace Sys2Proof.Machine

/-! ## The source requests, by the source -/

/-- What a file of the declared shape at position `pos` delivers to a read (R197). -/
def State.fileAnswer (s : State) (stream : List Frame) (pos : Nat) : List Frame :=
  (stream.drop pos).take (min s.par.chunkFrames (stream.length - pos))

/-- The state in which such a file has delivered its answer and moved on (R197). -/
def State.afterFileRead (s : State) (stream : List Frame) (pos : Nat) : State :=
  s.countReq.setSrc (.file s.stereo stream (pos + min s.par.chunkFrames (stream.length - pos)))

section
variable {s : State} {stream : List Frame} {pos : Nat}

theorem State.fileAnswer_length (s : State) (stream : List Frame) (pos : Nat) :
    (s.fileAnswer stream pos).length = min s.par.chunkFrames (stream.length - pos) := by
  simp [State.fileAnswer]

theorem State.fileFrames_matched (s : State) (stream : List Frame) (pos : Nat) :
    s.fileFrames s.par.chunkFrames s.stereo stream pos = s.fileAnswer stream pos := by
  rw [State.fileFrames, if_pos rfl, State.fileAnswer, ← List.length_drop, ← List.take_eq_take_min]

theorem State.srcRead_file (hs : s.src = .file s.stereo stream pos) :
    s.srcRead = .answered (.frames (s.fileAnswer stream pos)) (s.afterFileRead stream pos) := by
  simp only [State.srcRead, hs, State.fileFrames_matched, State.fileAnswer_length, State.afterFileRead]

theorem State.srcRewind_file (hs : s.src = .file s.stereo stream pos) :
    s.srcRewind = .answered .ok (s.countReq.setSrc (.file s.stereo stream 0)) := by
  simp only [State.srcRewind, hs]

theorem State.srcRead_error (hs : s.src = .error) : s.srcRead = .answered .error s.countReq := by
  simp only [State.srcRead, hs]

theorem State.srcRewind_error (hs : s.src = .error) : s.srcRewind = .answered .error s.countReq := by
  simp only [State.srcRewind, hs]

/-- A listed answer that R184 allows is the answer given. -/
theorem State.srcRead_script {fs : List Frame} {reads : List ReadAnswer} {rewinds : List RewindAnswer}
    (hs : s.src = .script (.frames fs :: reads) rewinds) (hlen : fs.length ≤ s.par.chunkFrames) :
    s.srcRead = .answered (.frames fs) (s.countReq.setSrc (.script reads rewinds)) := by
  simp only [State.srcRead, hs, if_pos hlen]

theorem State.srcRewind_script {r : RewindAnswer} {reads : List ReadAnswer} {rewinds : List RewindAnswer}
    (hs : s.src = .script reads (r :: rewinds)) :
    s.srcRewind = .answered r (s.countReq.setSrc (.script reads rewinds)) := by
  simp only [State.srcRewind, hs]

end

/-! ## A refill and a frame advance, case by case -/

section
variable {s u v : State} {fs : List Frame}

theorem State.RequestsOnly.chunk (h : s.RequestsOnly u) : u.chunk = s.chunk := (congrArg State.chunk h.1 :)

/-- What is stored over a chunk that the requests have left alone (R187). -/
theorem State.storeChunk_eq (h : s.RequestsOnly u) (fs : List Frame) :
    u.storeChunk fs =
      { u with chunk := fs ++ s.chunk.drop fs.length, chunkLen := BitVec.ofNat 16 fs.length, chunkIdx := 0 } := by
  rw [← h.chunk]
  rfl

theorem State.refillRewound_of_error (h : s.srcRead = .answered .error u) :
    s.refillRewound = .fail .audioIo u := by
  simp only [State.refillRewound, h]

theorem State.refillRewound_of_empty (h : s.srcRead = .answered (.frames []) u) :
    s.refillRewound = .fail .emptySrc u := by
  simp only [State.refillRewound, h]

theorem State.refillRewound_of_frames (h : s.srcRead = .answered (.frames fs) u) (hne : fs ≠ []) :
    s.refillRewound = .ok (u.storeChunk fs) := by
  cases fs with
  | nil => exact absurd rfl hne
  | cons f fs => simp only [State.refillRewound, h]

theorem State.refill_of_error (h : s.srcRead = .answered .error u) : s.refill = .fail .audioIo u := by
  simp only [State.refill, h]

theorem State.refill_of_frames (h : s.srcRead = .answered (.frames fs) u) (hne : fs ≠ []) :
    s.refill = .ok (u.storeChunk fs) := by
  cases fs with
  | nil => exact absurd rfl hne
  | cons f fs => simp only [State.refill, h]

theorem State.refill_of_rewind_error (h : s.srcRead = .answered (.frames []) u)
    (hr : u.srcRewind = .answered .error v) : s.refill = .fail .audioIo v := by
  simp only [State.refill, h, hr]

/-- At end of stream, after a rewind, the second read decides (R187, R188). -/
theorem State.refill_of_rewind_ok (h : s.srcRead = .answered (.frames []) u)
    (hr : u.srcRewind = .answered .ok v) : s.refill = v.countRewind.refillRewound := by
  simp only [State.refill, h, hr]

theorem State.advance_inChunk (h : s.chunkIdx.toNat + 1 < s.chunkLen.toNat) :
    s.advance = .ok s.nextFrame.countAdvance := if_pos h

theorem State.advance_of_refill_ok (h : ¬ s.chunkIdx.toNat + 1 < s.chunkLen.toNat) (hr : s.refill = .ok u) :
    s.advance = .ok u.countAdvance := by
  rw [State.advance, if_neg h, hr]

theorem State.advance_of_refill_fail {e : Cause} (h : ¬ s.chunkIdx.toNat + 1 < s.chunkLen.toNat)
    (hr : s.refill = .fail e u) : s.advance = .fail e u := by
  rw [State.advance, if_neg h, hr]

theorem State.advance_paramsOk (h : s.advance = .ok u) (hp : s.ParamsOk) : u.ParamsOk := by
  obtain ⟨hframe, -⟩ := State.advance_ok h
  rwa [State.ParamsOk, hframe.par]

/-- An advance within the chunk does not wrap `CHUNK_IDX` (R186). -/
theorem State.nextFrame_chunkIdx_toNat (h : s.chunkIdx.toNat + 1 < s.chunkLen.toNat) :
    s.nextFrame.chunkIdx.toNat = s.chunkIdx.toNat + 1 :=
  BitVec.toNat_add_of_lt (h.trans s.chunkLen.isLt)

end

/-! ## The filter input -/

section
variable {s : State} {f : Frame}

theorem State.chunkAt_of_getElem? {j : Nat} (h : s.chunk[j]? = some f) : s.chunkAt j = f := by
  rw [State.chunkAt, List.getD_eq_getElem?_getD, h, Option.getD_some]

theorem State.currentSample_mono (hf : s.chunk[s.chunkIdx.toNat]? = some f) (hs : s.stereo = false) :
    s.currentSample = f.left := by
  simp only [State.currentSample, State.chunkAt_of_getElem? hf, hs, Bool.false_eq_true, if_false]

theorem State.currentSample_stereo (hf : s.chunk[s.chunkIdx.toNat]? = some f) (hs : s.stereo = true) :
    s.currentSample = fmul32 (fadd32 f.left f.right) oneHalf := by
  simp only [State.currentSample, State.chunkAt_of_getElem? hf, hs, if_true]

end

/-- In a run a phase step that succeeds leaves a current frame: while no chunk has been read it owes an advance
(R194). -/
theorem State.phaseStep_hasFrame {s u : State} (hinv : s.Inv) (hrun : s.mode = .running) (h : s.phaseStep = .ok u) :
    u.HasFrame := by
  obtain ⟨⟨-, hcf, -⟩, -, ⟨⟨-, hch, hlen⟩, hcur⟩, -, hrunOk⟩ := hinv
  obtain ⟨-, hfirst, -⟩ := hrunOk hrun
  refine State.phaseLoop_hasFrame h hcf hch hlen (hcur.imp_left fun hnone => ?_)
  exact Nat.div_pos (hfirst hnone) (by decide)

/-! ## A file that loops -/

/-- The chunk holds the frames of the attached file that start at frame `base`, and the file stands behind them. -/
structure State.HoldsFrom (s : State) (stream : List Frame) (base : Nat) : Prop where
  src : s.src = .file s.stereo stream (base + s.chunkLen.toNat)
  current : s.chunkIdx.toNat < s.chunkLen.toNat
  fits : base + s.chunkLen.toNat ≤ stream.length
  entries : ∀ j < s.chunkLen.toNat, s.chunk[j]? = stream[base + j]?

/-- The frame in use is frame `n` of the endlessly repeated stream, and `RWCNT` counts the repetitions (R195). -/
def State.PlaysFrame (s : State) (stream : List Frame) (n : Nat) : Prop :=
  ∃ base loops, s.HoldsFrom stream base ∧ base + s.chunkIdx.toNat + stream.length * loops = n ∧
    s.rwcnt = BitVec.ofNat 32 loops

section
variable {s : State} {stream : List Frame} {pos : Nat}

theorem State.fileAnswer_ne_nil (hp : s.ParamsOk) (hpos : pos < stream.length) : s.fileAnswer stream pos ≠ [] := by
  obtain ⟨hcf, -⟩ := hp
  rw [← List.length_pos_iff, State.fileAnswer_length]
  omega

theorem State.fileAnswer_at_end (s : State) (stream : List Frame) : s.fileAnswer stream stream.length = [] := by
  simp [State.fileAnswer]

/-- The frames that a file delivered, once stored, are the chunk from the file's old position on. -/
theorem State.storeChunk_fileAnswer_holdsFrom (hp : s.ParamsOk) (hpos : pos < stream.length) :
    ((s.afterFileRead stream pos).storeChunk (s.fileAnswer stream pos)).HoldsFrom stream pos := by
  obtain ⟨hcf, hcf', -⟩ := hp
  have hlen : ((s.afterFileRead stream pos).storeChunk (s.fileAnswer stream pos)).chunkLen.toNat =
      min s.par.chunkFrames (stream.length - pos) := by
    rw [State.storeChunk_chunkLen, State.fileAnswer_length, BitVec.toNat_ofNat, Nat.mod_eq_of_lt (by omega)]
  constructor
  case src => rw [hlen]; rfl
  case current => rw [hlen, State.storeChunk_chunkIdx]; change 0 < _; omega
  case fits => rw [hlen]; omega
  case entries =>
    intro j hj
    rw [hlen] at hj
    rw [State.storeChunk_chunk, List.getElem?_append_left (by rwa [State.fileAnswer_length]), State.fileAnswer,
      List.getElem?_take_of_lt hj, List.getElem?_drop]

/-- A read before the end of the file delivers frames; once stored, they are the chunk from the file's old position
on. -/
theorem State.srcRead_file_stored (hs : s.src = .file s.stereo stream pos) (hp : s.ParamsOk)
    (hpos : pos < stream.length) :
    ∃ fs u, s.srcRead = .answered (.frames fs) u ∧ fs ≠ [] ∧ (u.storeChunk fs).HoldsFrom stream pos ∧
      (u.storeChunk fs).chunkIdx.toNat = 0 ∧ u.rwcnt = s.rwcnt :=
  ⟨_, _, State.srcRead_file hs, State.fileAnswer_ne_nil hp hpos, State.storeChunk_fileAnswer_holdsFrom hp hpos,
    rfl, rfl⟩

/-- A refill before the end of the file (R187, R197). -/
theorem State.refill_file (hs : s.src = .file s.stereo stream pos) (hp : s.ParamsOk) (hpos : pos < stream.length) :
    ∃ t, s.refill = .ok t ∧ t.HoldsFrom stream pos ∧ t.chunkIdx.toNat = 0 ∧ t.rwcnt = s.rwcnt := by
  obtain ⟨fs, u, hread, hfs, hstored⟩ := State.srcRead_file_stored hs hp hpos
  exact ⟨_, State.refill_of_frames hread hfs, hstored⟩

/-- A refill at the end of the file starts it again (R187, R197). -/
theorem State.refill_file_end (hs : s.src = .file s.stereo stream stream.length) (hp : s.ParamsOk)
    (hne : stream ≠ []) :
    ∃ t, s.refill = .ok t ∧ t.HoldsFrom stream 0 ∧ t.chunkIdx.toNat = 0 ∧ t.rwcnt = s.rwcnt + 1 := by
  have hread : s.srcRead = .answered (.frames []) (s.afterFileRead stream stream.length) := by
    rw [State.srcRead_file hs, State.fileAnswer_at_end]
  obtain ⟨v, hrewind, hsrc⟩ :
      ∃ v, (s.afterFileRead stream stream.length).srcRewind = .answered .ok v ∧ v.src = .file v.stereo stream 0 :=
    ⟨_, State.srcRewind_file rfl, rfl⟩
  obtain ⟨hkeep, -, hcount⟩ := State.srcRead_requestsOnly hread
  obtain ⟨hkeep', -, hcount'⟩ := State.srcRewind_requestsOnly hrewind
  have hp' : v.countRewind.ParamsOk := by
    rwa [State.ParamsOk, State.countRewind_par, (hkeep.trans hkeep').par]
  obtain ⟨fs, u, hread', hfs, hholds, hidx, hrw⟩ :=
    State.srcRead_file_stored (s := v.countRewind) hsrc hp' (List.length_pos_iff.mpr hne)
  refine ⟨_, (State.refill_of_rewind_ok hread hrewind).trans (State.refillRewound_of_frames hread' hfs), hholds, hidx,
    ?_⟩
  rw [State.storeChunk_rwcnt, hrw, State.countRewind_rwcnt, hcount', hcount]

/-- Counting an advance touches neither the chunk nor the source. -/
theorem State.HoldsFrom.countAdvance {base : Nat} (h : s.HoldsFrom stream base) :
    s.countAdvance.HoldsFrom stream base := ⟨h.src, h.current, h.fits, h.entries⟩

theorem State.HoldsFrom.nextFrame {base : Nat} (h : s.HoldsFrom stream base)
    (hlt : s.chunkIdx.toNat + 1 < s.chunkLen.toNat) : s.nextFrame.HoldsFrom stream base :=
  ⟨h.src, (State.nextFrame_chunkIdx_toNat hlt).trans_lt hlt, h.fits, h.entries⟩

/-- The first advance after an `INIT` takes the first frame of the stream. -/
theorem State.advance_freshFile (hp : s.ParamsOk) (hf : s.FreshFile stream) (hne : stream ≠ []) :
    ∃ t, s.advance = .ok t ∧ t.PlaysFrame stream 0 := by
  obtain ⟨hsrc, hlen, -, hrw⟩ := hf
  have hnone : ¬ s.chunkIdx.toNat + 1 < s.chunkLen.toNat := by rw [hlen]; exact Nat.not_lt_zero _
  obtain ⟨t, ht, hholds, hidx, hcount⟩ := State.refill_file hsrc hp (List.length_pos_iff.mpr hne)
  refine ⟨t.countAdvance, State.advance_of_refill_ok hnone ht, 0, 0, hholds.countAdvance, ?_, hcount.trans hrw⟩
  rw [State.countAdvance_chunkIdx, hidx]
  rfl

/-- Each further advance takes the next frame of the repeated stream: the next of the chunk, the first of the next
chunk, or the first of the stream, which the refill rewinds. -/
theorem State.PlaysFrame.advance {n : Nat} (h : s.PlaysFrame stream n) (hp : s.ParamsOk) :
    ∃ t, s.advance = .ok t ∧ t.PlaysFrame stream (n + 1) := by
  obtain ⟨base, loops, hholds, hn, hrw⟩ := h
  have hcur := hholds.current
  have hfits := hholds.fits
  by_cases hlt : s.chunkIdx.toNat + 1 < s.chunkLen.toNat
  · refine ⟨_, State.advance_inChunk hlt, base, loops, (hholds.nextFrame hlt).countAdvance, ?_, hrw⟩
    rw [State.countAdvance_chunkIdx, State.nextFrame_chunkIdx_toNat hlt]
    omega
  rcases hfits.lt_or_eq with hmore | hend
  · obtain ⟨t, ht, hholds', hidx, hcount⟩ := State.refill_file hholds.src hp hmore
    refine ⟨_, State.advance_of_refill_ok hlt ht, _, loops, hholds'.countAdvance, ?_, hcount.trans hrw⟩
    rw [State.countAdvance_chunkIdx, hidx]
    omega
  · have hne : stream ≠ [] := List.length_pos_iff.mp (by omega)
    obtain ⟨t, ht, hholds', hidx, hcount⟩ := State.refill_file_end (hend ▸ hholds.src) hp hne
    refine ⟨_, State.advance_of_refill_ok hlt ht, 0, loops + 1, hholds'.countAdvance, ?_, ?_⟩
    · rw [State.countAdvance_chunkIdx, hidx, Nat.mul_succ]
      omega
    · rw [State.countAdvance_rwcnt, hcount, hrw, BitVec.ofNat_add]
      rfl

theorem State.PlaysFrame.advances {n : Nat} (h : s.PlaysFrame stream n) (hp : s.ParamsOk) (k : Nat) :
    ∃ t, s.advances k = .ok t ∧ t.PlaysFrame stream (n + k) := by
  induction k generalizing s n with
  | zero => exact ⟨s, rfl, h⟩
  | succ k ih =>
    obtain ⟨u, hu, hplays⟩ := h.advance hp
    obtain ⟨t, ht, hplays'⟩ := ih hplays (State.advance_paramsOk hu hp)
    refine ⟨t, ?_, (show n + 1 + k = n + (k + 1) by omega) ▸ hplays'⟩
    simp only [State.advances, hu, ht]

/-- Where the frame in use is frame `n` of the repeated stream, `n` divided by the length gives the repetitions and the
frame's place in the stream. -/
theorem State.PlaysFrame.rwcnt_and_frame {n : Nat} (h : s.PlaysFrame stream n) :
    s.rwcnt = BitVec.ofNat 32 (n / stream.length) ∧
      stream[n % stream.length]? = some (s.chunkAt s.chunkIdx.toNat) := by
  obtain ⟨base, loops, hholds, hn, hrw⟩ := h
  have hcur := hholds.current
  have hplace : base + s.chunkIdx.toNat < stream.length := by have := hholds.fits; omega
  obtain ⟨hdiv, hmod⟩ := (Nat.div_mod_unique (by omega)).mpr ⟨hn, hplace⟩
  rw [hdiv, hmod]
  refine ⟨hrw, ?_⟩
  have hentry := (hholds.entries _ hcur).trans (List.getElem?_eq_getElem hplace)
  rw [State.chunkAt_of_getElem? hentry, List.getElem?_eq_getElem hplace]

end

/-! ## The statements -/

/-- Settles O20: the cases of `refill`, with what the requests keep (`RequestsOnly`) written out; what a refill that
fails or succeeds leaves is `refill_spec`. -/
theorem refillStoresTheFramesRead : Obligations.RefillStoresTheFramesRead := by
  unfold Obligations.RefillStoresTheFramesRead
  refine fun s => ⟨fun f fs u hread => ?stored, fun u hread => State.refill_of_error hread, fun u hread =>
    ⟨fun v hrewind => State.refill_of_rewind_error hread hrewind, fun v w hrewind hw => ?rewound⟩,
    fun e t hfail => ?failed, fun t hok => ?requests⟩
  case stored =>
    obtain ⟨hkeep, -⟩ := State.srcRead_requestsOnly hread
    rw [State.refill_of_frames hread (List.cons_ne_nil f fs), State.storeChunk_eq hkeep]
    rfl
  case rewound =>
    obtain ⟨hkeep, -, hcount⟩ := State.srcRead_requestsOnly hread
    obtain ⟨hkeep', -, hcount'⟩ := State.srcRewind_requestsOnly hrewind
    obtain rfl : w = v.countRewind := by rw [hw, ← hcount, ← hcount']; rfl
    rw [State.refill_of_rewind_ok hread hrewind]
    refine ⟨fun x hx => State.refillRewound_of_error hx, fun x hx => State.refillRewound_of_empty hx,
      fun f fs x hx => ?_⟩
    obtain ⟨hkeep'', -⟩ := State.srcRead_requestsOnly hx
    have hall := ((hkeep.trans hkeep').trans v.countRewind_requestsOnly).trans hkeep''
    rw [State.refillRewound_of_frames hx (List.cons_ne_nil f fs), State.storeChunk_eq hall]
    rfl
  case failed =>
    obtain ⟨-, ⟨hkeep, -⟩, hreqs, hcount⟩ := s.refill_spec.2 e t hfail
    exact ⟨hkeep, hreqs, hcount⟩
  case requests =>
    obtain ⟨-, -, hreqs⟩ := (s.refill_spec.1 t hok).fields
    exact hreqs

/-- Settles O22: the filter input of each shape, and the frame that a successful phase step leaves. -/
theorem currentSampleIsMonoWordOrMean : Obligations.CurrentSampleIsMonoWordOrMean := by
  unfold Obligations.CurrentSampleIsMonoWordOrMean
  refine ⟨fun s f hf => ⟨State.currentSample_mono hf, State.currentSample_stereo hf⟩, fun s u hinv hrun h => ?_⟩
  obtain ⟨hcur, hlen, -⟩ := State.phaseStep_hasFrame hinv hrun h
  exact ⟨hcur, _, List.getElem?_eq_getElem (hcur.trans_le hlen)⟩

/-- Settles O24: the first advance takes frame 0, each further one the next frame of the repeated stream. -/
theorem fileLoopsOnEndOfStream : Obligations.FileLoopsOnEndOfStream := by
  unfold Obligations.FileLoopsOnEndOfStream
  intro s stream n hp hfresh hne
  obtain ⟨u, hu, hplays⟩ := State.advance_freshFile hp hfresh hne
  obtain ⟨t, ht, hplays'⟩ := hplays.advances (State.advance_paramsOk hu hp) n
  refine ⟨t, ?_, (Nat.zero_add n ▸ hplays').rwcnt_and_frame⟩
  simp only [State.advances, hu, ht]

/-- Settles O19: the two cases of an advance, the second by what its refill comes to. -/
theorem advanceTakesTheNextFrame : Obligations.AdvanceTakesTheNextFrame := by
  unfold Obligations.AdvanceTakesTheNextFrame
  exact fun s => ⟨State.advance_inChunk, fun hlast =>
    ⟨fun _ => State.advance_of_refill_ok hlast, fun _ _ => State.advance_of_refill_fail hlast⟩⟩

/-- Settles O21: one equation per kind of source and request. -/
theorem fileSourceReadsItsStream : Obligations.FileSourceReadsItsStream := by
  unfold Obligations.FileSourceReadsItsStream
  refine ⟨fun _ => rfl, fun _ => rfl, fun s stream pos hs => ?file, fun s hs => ?error, fun s fs r hlen hs => ?script⟩
  case file => exact ⟨State.srcRead_file hs, State.srcRewind_file hs, hs⟩
  case error => exact ⟨State.srcRead_error hs, State.srcRewind_error hs⟩
  case script => exact ⟨State.srcRead_script hs hlen, State.srcRewind_script hs⟩

end Sys2Proof.Machine
end

section
/-! The filter's delay line: which entry each index names, what an insert leaves there, and the evaluation as a fold over
the coefficient numbers (43_fir.md R215 to R218). -/

namespace Sys2Proof.Machine

/-! ## Which entry an index names -/

theorem dlIndex_natCast (n : Nat) : (dlIndex n).val = n % 127 := by
  simp only [dlIndex]
  omega

theorem dlIndex_newest (w : Nat) {i : Nat} (hi : i < 64) : (dlIndex (newest w i)).val = (w + 126 - i) % 127 := by
  simp only [dlIndex, newest]
  omega

theorem dlIndex_oldest (w i : Nat) : (dlIndex (oldest w i)).val = (w + i) % 127 :=
  dlIndex_natCast (w + i)

theorem oldest_zero (w : Nat) : oldest w 0 = w := Int.add_zero w

/-- The two walks have gone 64 and 63 entries in opposite directions, all the way round the 127 (R218). -/
theorem dlIndex_newest_63_eq_oldest_63 (w : Nat) : dlIndex (newest w 63) = dlIndex (oldest w 63) := by
  refine Fin.ext ?_
  calc (dlIndex (newest w 63)).val = (w + 126 - 63) % 127 := dlIndex_newest w (by decide)
    _ = (w + 63) % 127 := by rw [Nat.add_sub_assoc (by decide)]
    _ = (dlIndex (oldest w 63)).val := (dlIndex_oldest w 63).symm

/-! ## Reading an entry -/

section
variable (s : State)

theorem State.dlAt_eq_getD {j : Int} {k : Nat} (h : (dlIndex j).val = k) : s.dlAt j = s.dl.toList.getD k 0 := by
  subst h
  simp [State.dlAt, List.getD]

theorem State.coefAt_eq_getD (i : Fin 64) : s.coefAt i = s.coef.toList.getD i 0 := by
  simp [State.coefAt, List.getD]

/-! ## What an insert leaves -/

theorem State.insert_widx_toNat (w : Word) : (s.insert w).widx.toNat = (s.widx.toNat + 1) % 127 := by
  simp only [State.insert_widx, BitVec.toNat_ofNat]
  omega

theorem State.dlAt_insert_of_eq {w : Word} {j : Int} (h : dlIndex j = dlIndex s.widx.toNat) : (s.insert w).dlAt j = w := by
  simp [State.dlAt, h]

/-- The newest entry after an insert is where the insert wrote: the write index has moved one on (R216). -/
theorem State.dlIndex_newest_insert (w : Word) :
    dlIndex (newest (s.insert w).widx.toNat 0) = dlIndex s.widx.toNat := by
  refine Fin.ext ?_
  rw [dlIndex_newest _ (by decide), dlIndex_natCast, s.insert_widx_toNat]
  omega

/-! ## The evaluation -/

/-- The term of a coefficient, by entries of the two memories (R217). -/
theorem State.firTerm_eq (i : Fin 64) :
    s.firTerm i = fmul32 (s.coef.toList.getD i 0)
      (fadd32 (s.dl.toList.getD ((s.widx.toNat + 126 - i) % 127) 0) (s.dl.toList.getD ((s.widx.toNat + i) % 127) 0)) := by
  rw [State.firTerm, s.coefAt_eq_getD, s.dlAt_eq_getD (dlIndex_newest _ i.isLt), s.dlAt_eq_getD (dlIndex_oldest _ _)]

/-- An evaluation whose terms are given by the coefficient's number is a fold over the numbers (R217). -/
theorem State.evaluate_eq_foldl_range {f : Nat → Word} (h : ∀ i : Fin 64, s.firTerm i = f i) :
    s.evaluate = (List.range 64).foldl (fun acc i => fadd32 acc (f i)) plusZero := by
  simp only [State.evaluate, h]
  rw [← List.map_coe_finRange_eq_range, List.foldl_map]

end

/-! ## The statements -/

/-- Settles O26: an insert writes where the newest walk then begins, and the next insert writes where the oldest begins. -/
theorem newestAndOldestWalkOutward : Obligations.NewestAndOldestWalkOutward := by
  unfold Obligations.NewestAndOldestWalkOutward
  rintro s _ w - rfl
  refine ⟨?newest, fun v => ?oldest, fun i hi => ⟨dlIndex_newest _ hi, dlIndex_oldest _ i⟩,
    dlIndex_newest_63_eq_oldest_63 _⟩
  case newest => exact s.dlAt_insert_of_eq (s.dlIndex_newest_insert w)
  case oldest => exact (s.insert w).dlAt_insert_of_eq (congrArg dlIndex (oldest_zero _))

/-- Settles O27: the model's fold over the coefficients, with each term read entry by entry. -/
theorem evaluationFollowsTheOrder : Obligations.EvaluationFollowsTheOrder := by
  unfold Obligations.EvaluationFollowsTheOrder
  exact fun s _ => s.evaluate_eq_foldl_range s.firTerm_eq

/-- Settles O25: the entry written is the one the write index names, since that index is below 127. -/
theorem insertWritesOneEntry : Obligations.InsertWritesOneEntry := by
  unfold Obligations.InsertWritesOneEntry
  intro s w hw
  have hidx : (dlIndex s.widx.toNat).val = s.widx.toNat := by rw [dlIndex_natCast]; omega
  refine ⟨?written, fun j hj => ?others, s.insert_widx_toNat w, rfl⟩
  case written => simp [hidx, Nat.lt_succ_of_le hw]
  case others => simp [hidx, Vector.getElem?_set_ne, hj.symm]

end Sys2Proof.Machine
end

section
/-! `INIT` as a whole command, and a sample step that fails: where its phase step ends and what `Fail` leaves
(44_baseband_commands.md R240, R244). -/

namespace Sys2Proof.Machine

/-! ## The state in which `INIT` leaves a run -/

/-- The model's subtraction on the naturals stops at 0, which is R182's maximum. -/
theorem initialPhase_eq_max (rate : Nat) : initialPhase rate = (max 0 ((192000 : Int) - rate)).toNat := by
  simp only [initialPhase, Config.outRate]
  omega

/-- `STATUS` in a run just started: `RUNNING`, with the FIFO empty and, since it has room, not full (R37, R240). -/
theorem State.startRun_complete_statusWord (s : State) (hp : s.ParamsOk) :
    s.startRun.complete.statusWord = 0x0000000A := by
  have hfull : s.startRun.complete.outFull = false := by
    obtain ⟨-, -, hdepth, -⟩ := hp
    simp only [State.outFull, State.complete_fifo, State.complete_par, State.startRun_fifo, State.startRun_par,
      List.length_nil, beq_eq_false_iff_ne]
    omega
  have hstall : s.startRun.complete.stall = false := rfl
  have hempty : s.startRun.complete.outEmpty = true := rfl
  simp [State.statusWord, hstall, hfull, hempty, Mode.code]

/-! ## A sample step that fails -/

section
variable {s u : State} {e : Cause} {p : Nat}

/-- The failed step of a `PROD` that owes samples and has room (R242, R244). -/
theorem State.prodStep_of_fail (hrem : s.prodRem ≠ 0) (hroom : s.fifo.length < s.par.outDepth)
    (h : s.phaseStep = .fail e p u) : s.prodStep = .next (u.failSample e p) := by
  simp only [State.prodStep, if_neg hrem, if_pos hroom, h]

/-- A failed phase step: `a` advances succeeded, and the partial phase has 192000 taken off for each of them and for the
one that failed (R183). -/
theorem State.phaseStep_fail (h : s.phaseStep = .fail e p u) :
    (e = .audioIo ∨ e = .emptySrc) ∧ s.UpsamplerOnly u ∧
      ∃ a, u.advcnt = s.advcnt + BitVec.ofNat 32 a ∧ p + 192000 * (a + 1) = s.phase.toNat + s.rate.toNat := by
  obtain ⟨he, hkeep, a, ha, hp, hadv, -⟩ := State.phaseLoop_fail h
  simp only [Config.outRate] at ha hp
  exact ⟨he, hkeep, a, hadv, by omega⟩

/-- `Fail` after a phase step that touched the upsampler only: of `s` the rest is kept, the delay line, the FIFO and
`SMPCNT` with it (R244). -/
theorem State.failSample_eq (h : s.UpsamplerOnly u) :
    u.failSample e p =
      { s with
        phase := BitVec.ofNat 32 p, mode := .fault, err := s.err ||| e.bit, advcnt := u.advcnt, rwcnt := u.rwcnt
        chunkIdx := u.chunkIdx, chunkLen := u.chunkLen, chunk := u.chunk
        busy := false, curOp := 0, prodRem := 0
        src := u.src, srcReqs := u.srcReqs } := by
  unfold State.UpsamplerOnly at h
  conv_lhs => rw [h]
  rfl

end

/-! ## The statements -/

/-- Settles O10: `INIT`'s issue, its step without and with a rate, its opcode with a reserved bit set, and the example,
in which the phase is evaluated at the rate given. -/
theorem initStartsARun : Obligations.InitStartsARun := by
  unfold Obligations.InitStartsARun
  refine ⟨rfl, fun s hb => ?issue, fun s hb hr => ?noRate, fun s hb hr => ?run, fun s x hb hx => ?reserved,
    fun s hp hb hr => ?exampleRun⟩
  case issue => exact execInit_idle hb
  case noRate => exact execInit_noRate hb hr
  case run =>
    rw [← initialPhase_eq_max]
    exact execInit_rate hb hr
  case reserved => exact State.hostWrite_cmd_bare_append (i := .init) rfl hb hx
  case exampleRun =>
    have hne : s.rate ≠ 0 := by rw [hr]; decide
    refine ⟨s.startRun.complete, execInit_rate hb hne, ?phase, ?chunk, rfl, s.startRun_complete_statusWord hp⟩
    case phase =>
      rw [State.complete_phase, State.startRun_phase, hr]
      rfl
    case chunk => simp [State.readReg]

/-- Settles O14: the step is `Fail` of what the phase step leaves (`phaseStep_fail`, `failSample_eq`); out of `RUNNING`
a `PROD` is refused. -/
theorem failedSampleKeepsTheLine : Obligations.FailedSampleKeepsTheLine := by
  unfold Obligations.FailedSampleKeepsTheLine
  refine ⟨fun n s u e p hb hrem hroom h => ?failed, fun n s hb hm => ?refused⟩
  case failed =>
    obtain ⟨he, hkeep, a, hadv, hp⟩ := State.phaseStep_fail h
    have hstep : exec (.prod n) s = .next (u.failSample e p) :=
      (execProd_busy n hb).trans (State.prodStep_of_fail hrem hroom h)
    rw [State.failSample_eq hkeep] at hstep
    exact ⟨he, _, hstep, rfl, rfl, rfl, rfl, rfl, rfl, rfl, rfl, rfl, rfl, rfl, rfl, rfl, rfl, a, hadv, hp⟩
  case refused =>
    have hnot : s.mode ≠ .running := by rw [hm]; decide
    exact (execProd_idle n hb).trans (if_neg hnot)

end Sys2Proof.Machine
end

section
/-! Errors: a `TUNE` without a divider, the writes that are refused, and what a step can do to `ERR`
(60_exceptions.md R263, R265, R267, R271). -/

namespace Sys2Proof.Machine

/-! ## A search without a valid candidate -/

/-- R154, R160: the search then ends at its start value, which is no divider. -/
theorem TuneIn.search_of_none_valid {t : TuneIn} (h : ∀ k, 2 ≤ k → k < 50 → t.valid k = false) :
    t.search = (0, -1) := by
  rcases t.search_found with ⟨hstart, -⟩ | ⟨hmem, hvalid, -⟩
  · exact hstart
  · obtain ⟨hlow, hhigh⟩ := mem_candidates.mp hmem
    rw [h _ hlow hhigh] at hvalid
    cases hvalid

/-! ## Locked registers -/

/-- The registers that `RUNNING` locks (10_state.md R33, class RWL). -/
def Reg.isLocked (r : Reg) : Prop := r = .ctrl ∨ r = .rate ∨ ∃ i, r = .coef i

/-- The offsets of the locked registers (20_memory.md R83). -/
theorem regAt_isLocked {off : Nat} (h : off = 0x008 ∨ off = 0x018 ∨ (0x100 ≤ off ∧ off ≤ 0x1FC)) :
    (regAt off).isLocked := by
  rcases h with rfl | rfl | hcoef
  · exact .inl rfl
  · exact .inr (.inl rfl)
  · exact .inr (.inr ⟨_, regAt_coef hcoef⟩)

/-- In `RUNNING` the write of a locked register only raises `E_LOCKED`, whatever is written. -/
theorem State.writeReg_of_isLocked {s : State} {v : Word} {r : Reg} (hm : s.mode = .running) (hr : r.isLocked) :
    s.writeReg v r = .next (s.raise .locked) := by
  rcases hr with rfl | rfl | ⟨i, rfl⟩ <;> exact (State.next_locking _).trans (if_pos hm)

/-! ## `ERR` over one step -/

/-- From `s` to `t` no error bit was lost, and at most one was raised. -/
def State.ErrGrows (s t : State) : Prop := t.err = s.err ∨ ∃ e : Cause, t.err = s.err ||| e.bit

section
variable {s t u : State}

theorem State.ErrGrows.of_eq (h : t.err = s.err) : s.ErrGrows t := .inl h

theorem State.ErrGrows.of_raised {e : Cause} (h : t.err = s.err ||| e.bit) : s.ErrGrows t := .inr ⟨e, h⟩

theorem State.phaseStep_ok_err (h : s.phaseStep = .ok u) : u.err = s.err := by
  obtain ⟨hkeep, -⟩ := State.phaseLoop_ok h
  exact hkeep.err

theorem State.phaseStep_fail_err {e : Cause} {p : Nat} (h : s.phaseStep = .fail e p u) : u.err = s.err := by
  obtain ⟨-, hkeep, -⟩ := State.phaseStep_fail h
  exact hkeep.err

theorem State.finishSample_err (s : State) : s.finishSample.err = s.err := by
  obtain ⟨y, -, h⟩ := s.finishSample_spec
  rw [h]

theorem State.failSample_err (s : State) (e : Cause) (p : Nat) : (s.failSample e p).err = s.err ||| e.bit := rfl

/-- A read of `OUT_DATA` raises at most `E_UNDERFLOW` (R270). -/
theorem State.pop_errGrows (s : State) : s.ErrGrows s.pop.2 := by
  rcases s.pop_spec with ⟨-, h⟩ | ⟨w, rest, -, h⟩ <;> rw [h]
  · exact .of_raised rfl
  · exact .of_eq rfl

/-- The sequencer's step of a command raises at most one error. -/
theorem SeqCase.errGrows (h : SeqCase s t) : s.ErrGrows t := by
  cases h with
  | nop _ ht | init _ _ ht | prodEmpty _ _ ht | prodHeld _ _ ht | halt _ ht => exact .of_eq (by subst ht; rfl)
  | initFails _ _ ht => exact .of_raised (by rw [ht]; rfl)
  | prodSample u _ _ _ hp ht => exact .of_eq (by rw [ht, State.finishSample_err, State.phaseStep_ok_err hp])
  | prodFails e p u _ _ _ hp ht =>
    exact .of_raised (by rw [ht, State.failSample_err, State.phaseStep_fail_err hp])
  | tune _ ht =>
    subst ht
    rcases s.tuneStep_err with h | h | h
    · exact .of_eq h
    · exact .of_raised h
    · exact .of_raised h

/-- The issue of a command raises at most `E_STATE` (40_sequencer.md R131). -/
theorem exec_idle_errGrows {i : Instr} (hb : s.busy = false) (h : exec i s = .next t) : s.ErrGrows t := by
  rcases exec_idle_next hb h with ⟨-, rfl⟩ | ⟨n, -, -, rfl⟩ | ⟨n, -, -, rfl⟩
  · exact .of_eq rfl
  · exact .of_eq rfl
  · exact .of_raised rfl

/-- R271, R272: of all steps only a reset and a write of `ERR` can lose an error bit. -/
theorem StepCase.errGrows (h : StepCase s t) (hreset : s.resetsNext = false)
    (hclear : ∀ v ts, s.agenda ≠ .write 0x010 4 v :: ts) : s.ErrGrows t := by
  cases h with
  | idle ts ht | config ts _ _ ht | inputs ts _ ht | read _ ts _ ht | attach _ ts _ ht =>
    exact .of_eq (by rw [ht]; rfl)
  | seq i ts hn hc he =>
    have hb : s.busy = true := (Bool.and_eq_true_iff.mp hn).1
    have hcase : SeqCase (s.withAgenda ts) t := exec_busy_next hb hc he
    exact hcase.errGrows
  | issue i v ts _ hb _ he => exact exec_idle_errGrows (s := s.withAgenda ts) hb he
  | reset ts hr _ => exact absurd hr (Bool.eq_false_iff.mp hreset)
  | clearErr v ts ha _ => exact absurd ha (hclear v ts)
  | raise e ts ht => exact .of_raised (by rw [ht]; rfl)
  | pop ts _ ht =>
    subst ht
    exact (s.withAgenda ts).pop_errGrows

end

/-- A write of `ERR` clears the bits written 1, also while a command executes (20_memory.md R87). -/
theorem State.hostWrite_err (s : State) (v : Word) : s.hostWrite 0x010 v = .next (s.clearErr (v.extractLsb' 0 9)) := by
  rw [State.hostWrite_eq, if_neg (by simp), if_pos rfl]

theorem step_cons {s : State} {t : Turn} {ts : List Turn} (h : s.agenda = t :: ts) :
    step s = (s.withAgenda ts).turn t := by
  simp only [step, h]
  rfl

/-! ## The statements -/

/-- Settles O37: the search finds nothing, so the step is its third case. -/
theorem tuneFailsWithoutADivider : Obligations.TuneFailsWithoutADivider := by
  unfold Obligations.TuneFailsWithoutADivider
  intro s hb hf ho hnone
  have hnot : s.tuneIn.search.1 = 0 := congrArg Prod.fst (TuneIn.search_of_none_valid hnone)
  refine (execTune_busy hb).trans ?_
  rw [State.tuneStep_of_not_found hf ho hnot]
  rfl

/-- Settles O47: while busy the write is dropped before the map is asked (`hostWrite_busy`); otherwise it reaches its
register, which is locked. -/
theorem refusedWritesSetOnlyTheirBit : Obligations.RefusedWritesSetOnlyTheirBit := by
  unfold Obligations.RefusedWritesSetOnlyTheirBit
  refine ⟨fun s off v ha hw hb herr hreset => ?busy, fun s off v ha hb hm hoff => ?locked⟩
  case busy => exact (State.turn_write ha hw).trans (State.hostWrite_busy hb hreset herr)
  case locked =>
    have hreset : ¬ (off = 0x008 ∧ v.getLsbD 31 = true) := by
      rintro ⟨rfl, hset⟩
      rcases hoff with ⟨-, hclear⟩ | hother
      · exact Bool.eq_false_iff.mp hclear hset
      · omega
    have hlocked : (regAt off).isLocked := regAt_isLocked (hoff.imp_left And.left)
    rw [State.turn_write ha (by omega), State.hostWrite_idle hb hreset (by omega),
      State.writeReg_of_isLocked hm hlocked]
    rfl

/-- Settles O51: the cases of a step (`StepCase.errGrows`); the write of `ERR` in full. -/
theorem errorsAreStickyAndComeOneAtATime : Obligations.ErrorsAreStickyAndComeOneAtATime := by
  unfold Obligations.ErrorsAreStickyAndComeOneAtATime
  refine ⟨fun s t h hreset hclear => (step_next h).errGrows hreset hclear, fun s v ts ha => ?_⟩
  rw [step_cons ha, State.turn_write (by decide) (by decide), State.hostWrite_err]
  rfl

end Sys2Proof.Machine
end

section
/-! Reset and what it leaves: both forms of reset as steps, the block that has just been reset (its registers and the
fate of its first command), and the steps that keep `TUNE`'s results (70_reset_and_hazards.md R300 to R303, R309). -/

namespace Sys2Proof.Machine

/-! ## The two resets -/

/-- Bit 31 of a write of `CTRL` resets the block, also while a command executes (R300). -/
theorem State.hostWrite_reset {s : State} {v : Word} (hv : v.getLsbD 31 = true) :
    s.hostWrite 0x008 v = .next s.resetBlock := by
  rw [State.hostWrite_eq, if_pos ⟨rfl, hv⟩]

theorem State.turn_powerOn (s : State) : s.turn .powerOn = .next s.resetBlock := rfl

/-- `Reset()` leaves the turns to come (R304). -/
theorem State.resetBlock_withAgenda (s : State) (ts : List Turn) :
    (s.withAgenda ts).resetBlock = s.resetBlock.withAgenda ts := rfl

theorem State.resetBlock_resetBlock (s : State) : s.resetBlock.resetBlock = s.resetBlock := rfl

/-! ## The registers of a block just reset -/

section
variable {s : State}

/-- The emptied FIFO is not full, because `OUT_DEPTH` is at least 1 (R8). -/
theorem State.resetBlock_outFull (hp : s.ParamsOk) : s.resetBlock.outFull = false := by
  obtain ⟨-, -, hdepth, -⟩ := hp
  simp only [State.outFull, State.resetBlock_fifo, State.resetBlock_par, List.length_nil, beq_eq_false_iff_ne]
  omega

/-- `STATUS` shows `IDLE` and `OUT_EMPTY`, and nothing else (R37, R303). -/
theorem State.resetBlock_statusWord (hp : s.ParamsOk) : s.resetBlock.statusWord = 0x00000008 := by
  have hfull : s.resetBlock.outFull = false := State.resetBlock_outFull hp
  have hstall : s.resetBlock.stall = false := rfl
  have hempty : s.resetBlock.outEmpty = true := rfl
  simp [State.statusWord, hstall, hfull, hempty, Mode.code]

/-- R303, for the named registers and the two memory views alike. -/
theorem State.resetBlock_readReg {r : Reg} (hstatus : r ≠ .status) (hid : r ≠ .id) (hparam : r ≠ .param) :
    s.resetBlock.readReg r = 0 := by
  cases r with
  | status => exact absurd rfl hstatus
  | id => exact absurd rfl hid
  | param => exact absurd rfl hparam
  | chunk | coef _ | dl _ => simp [State.readReg]
  | _ => rfl

end

/-- The first error after a reset, or after `ERR` was cleared, is alone in `ERR`. -/
theorem State.raise_of_err_zero {s : State} {e : Cause} (h : s.err = 0) : s.raise e = { s with err := e.bit } := by
  have hor : s.err ||| e.bit = e.bit := by rw [h]; exact BitVec.zero_or
  rw [State.raise, hor]

/-! ## A command without an operand, from its word to its step -/

section
variable {s : State} {i : Instr}

/-- With `BUSY = 0` the word of a command without an operand is accepted, whatever `MODE` is (R131). -/
theorem State.hostWrite_cmd_bare (hi : i.isBare) (hb : s.busy = false) :
    s.hostWrite 0x014 (encode i) = .next (s.accept i.op 0) := by
  rw [State.hostWrite_cmd_command hb (decode_encode (Instr.wellFormed_of_isBare hi))]
  refine exec_idle_of_ne_prod hb fun n hn => ?_
  rcases (Instr.isBare_iff i).mp hi with rfl | rfl | rfl | rfl <;> cases hn

/-- The sequencer's next turn takes the step of the command accepted (R137). -/
theorem State.seqTurn_accept_bare (hi : i.isBare) : (s.accept i.op 0).seqTurn = exec i (s.accept i.op 0) := by
  rcases (Instr.isBare_iff i).mp hi with rfl | rfl | rfl | rfl <;> rfl

end

/-! ## The results of `TUNE` -/

/-- `K`, `FOM`, `MINT`, `MFRAC` and `TSTAT`, the registers that only `TUNE` and a reset write (R309). -/
def State.tuneResults (s : State) : BitVec 8 × BitVec 2 × Word × BitVec 20 × BitVec 3 :=
  (s.k, s.fom, s.mint, s.mfrac, s.tstat)

section
variable {s t u : State}

theorem State.tuneResults_eq_iff :
    t.tuneResults = s.tuneResults ↔
      t.k = s.k ∧ t.fom = s.fom ∧ t.mint = s.mint ∧ t.mfrac = s.mfrac ∧ t.tstat = s.tstat := by
  simp only [State.tuneResults, Prod.mk.injEq]

theorem State.UpsamplerOnly.tuneResults (h : s.UpsamplerOnly t) : t.tuneResults = s.tuneResults :=
  (congrArg State.tuneResults h :)

theorem State.finishSample_tuneResults (s : State) : s.finishSample.tuneResults = s.tuneResults := by
  obtain ⟨y, -, h⟩ := s.finishSample_spec
  rw [h]
  rfl

theorem State.failSample_tuneResults (s : State) (e : Cause) (p : Nat) :
    (s.failSample e p).tuneResults = s.tuneResults := rfl

theorem State.pop_tuneResults (s : State) : s.pop.2.tuneResults = s.tuneResults := by
  simp only [State.tuneResults, State.pop_k, State.pop_fom, State.pop_mint, State.pop_mfrac, State.pop_tstat]

/-- The sequencer's step of any command but `TUNE` keeps the results; a `PROD`'s does because a phase step touches the
upsampler only. -/
theorem SeqCase.tuneResults (h : SeqCase s t) (hop : s.curOp ≠ 0x04) : t.tuneResults = s.tuneResults := by
  cases h with
  | nop _ ht | initFails _ _ ht | init _ _ ht | prodEmpty _ _ ht | prodHeld _ _ ht | halt _ ht => subst ht; rfl
  | prodSample u _ _ _ hp ht =>
    obtain ⟨hkeep, -⟩ := State.phaseLoop_ok hp
    rw [ht, State.finishSample_tuneResults, hkeep.tuneResults]
  | prodFails e p u _ _ _ hp ht =>
    obtain ⟨-, hkeep, -⟩ := State.phaseStep_fail hp
    rw [ht, State.failSample_tuneResults, hkeep.tuneResults]
  | tune hc _ => exact absurd hc hop

/-- The issue of a command, `TUNE` among them, keeps the results: only its step writes them. -/
theorem exec_idle_tuneResults {i : Instr} (hb : s.busy = false) (h : exec i s = .next t) :
    t.tuneResults = s.tuneResults := by
  rcases exec_idle_next hb h with ⟨-, rfl⟩ | ⟨n, -, -, rfl⟩ | ⟨n, -, -, rfl⟩ <;> rfl

/-- R309: of all steps only the sequencer's step of a `TUNE` and a reset can change the results. -/
theorem StepCase.tuneResults (h : StepCase s t) (htune : s.runsNext 0x04 = false) (hreset : s.resetsNext = false) :
    t.tuneResults = s.tuneResults := by
  cases h with
  | idle ts ht | clearErr _ ts _ ht | raise _ ts ht | config ts _ _ ht | inputs ts _ ht | read _ ts _ ht
  | attach _ ts _ ht => rw [ht]; rfl
  | seq i ts hn hc he =>
    have hb : s.busy = true := (Bool.and_eq_true_iff.mp hn).1
    have hop : s.curOp ≠ 0x04 := fun heq => by simp [State.runsNext, hn, heq] at htune
    have hcase : SeqCase (s.withAgenda ts) t := exec_busy_next hb hc he
    exact hcase.tuneResults hop
  | issue i v ts _ hb _ he => exact exec_idle_tuneResults (s := s.withAgenda ts) hb he
  | reset ts hr _ => exact absurd hr (Bool.eq_false_iff.mp hreset)
  | pop ts _ ht =>
    subst ht
    exact (s.withAgenda ts).pop_tuneResults

end

/-! ## The statements -/

/-- Settles O42: the cases of a step (`StepCase.tuneResults`). -/
theorem tuneResultsAreHeld : Obligations.TuneResultsAreHeld := by
  unfold Obligations.TuneResultsAreHeld
  intro s t h htune hreset
  exact State.tuneResults_eq_iff.mp ((step_next h).tuneResults htune hreset)

/-- Settles O55: the registers of the reset block; `MODE` is `IDLE`, so a `PROD` is refused; `RATE` and `FREF` are 0, so
`INIT` and `TUNE` are accepted and fail in their step. -/
theorem nothingRunsUnconfiguredAfterReset : Obligations.NothingRunsUnconfiguredAfterReset := by
  unfold Obligations.NothingRunsUnconfiguredAfterReset
  rintro s _ hp rfl
  have hidle : s.resetBlock.busy = false := rfl
  refine ⟨State.resetBlock_statusWord hp, rfl, fun r => State.resetBlock_readReg, fun n hn => ?prod, ?init, ?tune⟩
  case prod =>
    have hnot : s.resetBlock.mode ≠ .running := by rw [State.resetBlock_mode]; decide
    have hd : decode (encode (.prod n)) = .command (.prod n) := decode_encode (Instr.wellFormed_prod.mpr hn)
    refine (State.hostWrite_cmd_command hidle hd).trans ((execProd_idle n hidle).trans ?_)
    rw [if_neg hnot, State.raise_of_err_zero rfl]
    rfl
  case init =>
    refine ⟨_, State.hostWrite_cmd_bare (i := .init) rfl hidle, ?_⟩
    rw [State.seqTurn_accept_bare (i := .init) rfl]
    refine (execInit_noRate rfl rfl).trans ?_
    rw [State.raise_of_err_zero rfl]
    rfl
  case tune =>
    refine ⟨_, State.hostWrite_cmd_bare (i := .tune) rfl hidle, ?_⟩
    rw [State.seqTurn_accept_bare (i := .tune) rfl]
    refine (execTune_busy rfl).trans ?_
    rw [State.tuneStep_of_fref_zero rfl, State.raise_of_err_zero rfl]
    rfl

/-- Settles O53: `resetBlock` builds its result from the start state, whose fields are the rule's values. -/
theorem resetSetsEveryElement : Obligations.ResetSetsEveryElement := by
  unfold Obligations.ResetSetsEveryElement
  exact ⟨fun _ => rfl, rfl⟩

/-- Settles O54: each reset as its turn; the state it meets is not asked for `BUSY`. -/
theorem resetIsHonouredInEveryState : Obligations.ResetIsHonouredInEveryState := by
  unfold Obligations.ResetIsHonouredInEveryState
  refine fun s ts v => ⟨fun ha => ?powerOn, fun hv ha => ?ctrl, s.resetBlock_resetBlock⟩
  case powerOn =>
    rw [step_cons ha, State.turn_powerOn, State.resetBlock_withAgenda]
    rfl
  case ctrl =>
    rw [step_cons ha, State.turn_write (by decide) (by decide), State.hostWrite_reset hv, State.resetBlock_withAgenda]
    rfl

end Sys2Proof.Machine
end

section
/-! A phase step as advances in a row: what it comes to in each case, and how much it can ask of the source
(42_upsampler.md R183, R192, R196). -/

namespace Sys2Proof.Machine

/-- `P` at the start of a phase step (R183). -/
def State.nextPhase (s : State) : Nat := s.phase.toNat + s.rate.toNat

/-- The advances that the next phase step owes (R183). -/
def State.advancesOwed (s : State) : Nat := s.nextPhase / Config.outRate

/-! ## A phase step by its advances -/

section
variable {s t u v : State} {a : Nat}

theorem State.phaseLoop_succ_of_fail {n p : Nat} {e : Cause} (h : v.advance = .fail e u) :
    v.phaseLoop (n + 1) p = .fail e (p - Config.outRate) u := by
  simp only [State.phaseLoop, h]

theorem State.phaseLoop_succ_of_unanswered {n p : Nat} (h : v.advance = .unanswered) :
    v.phaseLoop (n + 1) p = .unanswered := by
  simp only [State.phaseLoop, h]

theorem State.phaseLoop_succ_of_overrun {n p : Nat} (h : v.advance = .overrun) :
    v.phaseLoop (n + 1) p = .overrun := by
  simp only [State.phaseLoop, h]

/-- What is left of a phase step after some of the advances it owes. -/
theorem State.phaseStep_after {n : Nat} (h : s.advances a = .ok v) (hn : s.advancesOwed = a + n) :
    s.phaseStep = v.phaseLoop n (s.nextPhase - Config.outRate * a) := by
  rw [← State.phaseLoop_after h, ← hn]
  rfl

/-- After fewer advances than owed, at least one more is tried. -/
theorem State.phaseStep_after_lt (h : s.advances a = .ok v) (ha : a < s.advancesOwed) :
    ∃ n, s.phaseStep = v.phaseLoop (n + 1) (s.nextPhase - Config.outRate * a) :=
  ⟨s.advancesOwed - a - 1, State.phaseStep_after h (by omega)⟩

theorem State.nextPhase_sub_owed (s : State) :
    s.nextPhase - Config.outRate * s.advancesOwed = s.nextPhase % Config.outRate :=
  (Nat.mod_eq_sub_mul_div).symm

/-- All the advances owed succeed. -/
theorem State.phaseStep_of_advances (h : s.advances s.advancesOwed = .ok u) :
    s.phaseStep = .ok (u.setPhase (s.nextPhase % Config.outRate)) := by
  rw [State.phaseStep_after (n := 0) h rfl, State.nextPhase_sub_owed]
  rfl

theorem State.phaseStep_of_advance_fail {e : Cause} (h : s.advances a = .ok v) (ha : a < s.advancesOwed)
    (hv : v.advance = .fail e u) : s.phaseStep = .fail e (s.nextPhase - Config.outRate * (a + 1)) u := by
  obtain ⟨n, hn⟩ := State.phaseStep_after_lt h ha
  rw [hn, State.phaseLoop_succ_of_fail hv, Nat.sub_sub]
  rfl

theorem State.phaseStep_of_advance_unanswered (h : s.advances a = .ok v) (ha : a < s.advancesOwed)
    (hv : v.advance = .unanswered) : s.phaseStep = .unanswered := by
  obtain ⟨n, hn⟩ := State.phaseStep_after_lt h ha
  rw [hn, State.phaseLoop_succ_of_unanswered hv]

theorem State.phaseStep_of_advance_overrun (h : s.advances a = .ok v) (ha : a < s.advancesOwed)
    (hv : v.advance = .overrun) : s.phaseStep = .overrun := by
  obtain ⟨n, hn⟩ := State.phaseStep_after_lt h ha
  rw [hn, State.phaseLoop_succ_of_overrun hv]

/-- What a phase step came to tells how its advances went (R183). -/
theorem State.phaseStep_inv (s : State) :
    (∀ t, s.phaseStep = .ok t →
      ∃ u, s.advances s.advancesOwed = .ok u ∧ t = u.setPhase (s.nextPhase % Config.outRate)) ∧
    (∀ e r u, s.phaseStep = .fail e r u → ∃ a v, a < s.advancesOwed ∧ s.advances a = .ok v ∧
      v.advance = .fail e u ∧ r = s.nextPhase - Config.outRate * (a + 1)) ∧
    (s.phaseStep = .unanswered → ∃ a v, a < s.advancesOwed ∧ s.advances a = .ok v ∧ v.advance = .unanswered) ∧
    (s.phaseStep = .overrun → ∃ a v, a < s.advancesOwed ∧ s.advances a = .ok v ∧ v.advance = .overrun) := by
  have hdef : s.phaseStep = s.phaseLoop s.advancesOwed s.nextPhase := rfl
  rcases State.phaseLoop_cases s.advancesOwed s.nextPhase s with
    ⟨u, hu, h⟩ | ⟨a, v, ha, hv, ⟨e, u, hadv, h⟩ | ⟨hadv, h⟩ | ⟨hadv, h⟩⟩ <;> rw [hdef, h]
  · refine ⟨fun t ht => ?ok, fun _ _ _ h => (by cases h), fun h => (by cases h), fun h => (by cases h)⟩
    cases ht
    exact ⟨u, hu, by rw [State.nextPhase_sub_owed]⟩
  · refine ⟨fun _ h => (by cases h), fun e' r u' ht => ?fail, fun h => (by cases h), fun h => (by cases h)⟩
    cases ht
    exact ⟨a, v, ha, hv, hadv, rfl⟩
  · exact ⟨fun _ h => (by cases h), fun _ _ _ h => (by cases h), fun _ => ⟨a, v, ha, hv, hadv⟩, fun h => (by cases h)⟩
  · exact ⟨fun _ h => (by cases h), fun _ _ _ h => (by cases h), fun h => (by cases h), fun _ => ⟨a, v, ha, hv, hadv⟩⟩

/-- Between two advances nothing changes but the phase (R192). -/
theorem State.phaseStep_of_none_owed (h : s.nextPhase < Config.outRate) :
    s.phaseStep = .ok (s.setPhase s.nextPhase) := by
  have hnone : s.advancesOwed = 0 := Nat.div_eq_of_lt h
  have hdef : s.phaseStep = s.phaseLoop s.advancesOwed s.nextPhase := rfl
  rw [hdef, hnone]
  rfl

/-- What a successful phase step leaves: the remainder as the phase, the advances counted, nothing else but the chunk
state and the source touched. -/
theorem State.phaseStep_ok (h : s.phaseStep = .ok t) :
    s.UpsamplerOnly t ∧ t.phase.toNat = s.nextPhase % Config.outRate ∧
      t.advcnt = s.advcnt + BitVec.ofNat 32 s.advancesOwed ∧ t.srcReqs ≤ s.srcReqs + 3 * s.advancesOwed := by
  obtain ⟨hkeep, hphase, hadv, hreqs⟩ := State.phaseLoop_ok h
  refine ⟨hkeep, ?_, hadv, hreqs⟩
  have hrem : t.phase = BitVec.ofNat 32 (s.nextPhase % Config.outRate) := s.nextPhase_sub_owed ▸ hphase
  have hlt : s.nextPhase % Config.outRate < Config.outRate := Nat.mod_lt _ (by decide)
  rw [hrem, BitVec.toNat_ofNat]
  exact Nat.mod_eq_of_lt (hlt.trans (by decide))

/-- `RATE` has 24 bits, so a phase below 192000 grows to less than 89 times that (R196). -/
theorem State.advancesOwed_le (h : s.phase.toNat < Config.outRate) : s.advancesOwed ≤ 88 := by
  have hrate := s.rate.isLt
  simp only [State.advancesOwed, State.nextPhase, Config.outRate] at *
  omega

end

/-! ## The statements -/

/-- Settles O17: both ways between a phase step and its advances (`phaseStep_inv` and the lemmas before it); with none
owed only the phase changes, which the filter input does not read. -/
theorem phaseStepIsExact : Obligations.PhaseStepIsExact := by
  unfold Obligations.PhaseStepIsExact
  intro s p q hp hq
  obtain rfl : p = s.nextPhase := hp
  obtain rfl : q = s.advancesOwed := hq
  obtain ⟨hok, hfail, hsilent, hover⟩ := s.phaseStep_inv
  refine ⟨fun t => ⟨hok t, ?_⟩, fun e r u => ⟨hfail e r u, ?_⟩, ⟨hsilent, ?_⟩, ⟨hover, ?_⟩, ?_, ?_⟩
  · rintro ⟨u, hu, rfl⟩
    exact State.phaseStep_of_advances hu
  · rintro ⟨a, v, ha, hv, hadv, hr⟩
    rw [hr]
    exact State.phaseStep_of_advance_fail hv ha hadv
  · rintro ⟨a, v, ha, hv, hadv⟩
    exact State.phaseStep_of_advance_unanswered hv ha hadv
  · rintro ⟨a, v, ha, hv, hadv⟩
    exact State.phaseStep_of_advance_overrun hv ha hadv
  · rintro hp _ rfl
    exact ⟨State.phaseStep_of_none_owed hp, rfl⟩
  · intro t ht
    obtain ⟨hkeep, hphase, hadv, -⟩ := State.phaseStep_ok ht
    exact ⟨hphase, hadv, hkeep⟩

/-- Settles O18: at most three requests for each advance tried, and at most 88 advances owed. -/
theorem phaseStepIsBounded : Obligations.PhaseStepIsBounded := by
  unfold Obligations.PhaseStepIsBounded
  intro s hs
  have howed := State.advancesOwed_le hs
  refine ⟨howed, fun t ht => ?_, fun e p t ht => ?_⟩
  · obtain ⟨-, -, -, hreqs⟩ := State.phaseStep_ok ht
    omega
  · obtain ⟨-, -, a, ha, -, -, hreqs⟩ := State.phaseLoop_fail ht
    have ha : a < s.advancesOwed := ha
    omega

end Sys2Proof.Machine
end

section
/-! The sample step of `PROD`: its outcome for each outcome of its phase step, the full FIFO, the sources that do not
answer or answer too much, and the file that always does (44_baseband_commands.md R241 to R246; 42_upsampler.md R185,
R197; 70_reset_and_hazards.md R314). -/

namespace Sys2Proof.Machine

/-! ## The step of a `PROD`, by what its phase step comes to -/

section
variable {s t u v : State}

theorem State.prodStep_of_none_owed (hrem : s.prodRem = 0) : s.prodStep = .next s.complete := by
  rw [State.prodStep, if_pos hrem]

/-- R243: without room in the FIFO nothing happens. -/
theorem State.prodStep_of_full (hrem : s.prodRem ≠ 0) (hfull : ¬ s.fifo.length < s.par.outDepth) :
    s.prodStep = .next s := by
  rw [State.prodStep, if_neg hrem, if_neg hfull]

theorem State.prodStep_of_ok (hrem : s.prodRem ≠ 0) (hroom : s.fifo.length < s.par.outDepth)
    (h : s.phaseStep = .ok u) : s.prodStep = .next u.finishSample := by
  simp only [State.prodStep, if_neg hrem, if_pos hroom, h]

theorem State.prodStep_of_unanswered (hrem : s.prodRem ≠ 0) (hroom : s.fifo.length < s.par.outDepth)
    (h : s.phaseStep = .unanswered) : s.prodStep = .next s := by
  simp only [State.prodStep, if_neg hrem, if_pos hroom, h]

theorem State.prodStep_of_overrun (hrem : s.prodRem ≠ 0) (hroom : s.fifo.length < s.par.outDepth)
    (h : s.phaseStep = .overrun) : s.prodStep = .refused .sourceOverrun := by
  simp only [State.prodStep, if_neg hrem, if_pos hroom, h]

/-- Steps 2 to 5 of R242 as one update of the state `v` that the insert leaves. -/
theorem State.finishSample_eq (hv : v = u.insert u.currentSample) :
    u.finishSample =
      { v with
        fifo := v.fifo ++ [v.evaluate]
        smpcnt := v.smpcnt + 1
        prodRem := v.prodRem - 1
        busy := if v.prodRem - 1 = 0 then false else v.busy
        curOp := if v.prodRem - 1 = 0 then 0 else v.curOp } := by
  obtain ⟨y, rfl, h⟩ := u.finishSample_spec
  rw [h, hv]
  rfl

/-- `STALL` names a `PROD` that owes samples and finds no room (10_state.md R66). -/
theorem State.stall_iff :
    s.stall = true ↔ s.busy = true ∧ s.curOp = 0x02 ∧ s.prodRem ≠ 0 ∧ s.fifo.length = s.par.outDepth := by
  simp only [State.stall, State.outFull, Bool.and_eq_true, beq_iff_eq, bne_iff_ne, and_assoc]

theorem State.stall_of_room (hroom : s.fifo.length < s.par.outDepth) : s.stall = false := by
  refine Bool.eq_false_iff.mpr fun hstall => ?_
  obtain ⟨-, -, -, hfull⟩ := State.stall_iff.mp hstall
  exact hroom.ne hfull

/-- A `PROD` at its issue and at each of its steps appends at most one word (R246). -/
theorem execProd_fifo_prefix {n : Nat} (h : exec (.prod n) s = .next t) : s.fifo <+: t.fifo := by
  cases hb : s.busy with
  | false =>
    rcases exec_idle_next hb h with ⟨-, rfl⟩ | ⟨n, -, -, rfl⟩ | ⟨n, -, -, rfl⟩ <;> exact List.prefix_rfl
  | true =>
    have hstep : s.prodStep = .next t := (execProd_busy n hb).symm.trans h
    rcases State.prodStep_next hstep with ⟨-, rfl⟩ | ⟨-, rfl⟩ | ⟨-, -, u, hu, rfl⟩ | ⟨-, -, e, p, u, hu, rfl⟩
    · exact List.prefix_rfl
    · exact List.prefix_rfl
    · obtain ⟨hkeep, -⟩ := State.phaseStep_ok hu
      rw [State.finishSample_eq rfl, ← hkeep.fifo]
      exact List.prefix_append _ _
    · obtain ⟨-, hkeep, -⟩ := State.phaseStep_fail hu
      rw [← hkeep.fifo]
      exact List.prefix_rfl

end

/-! ## Requests that get no answer, or too long a one -/

section
variable {s u w : State}

theorem State.srcRead_silent (h : s.src = .silent) : s.srcRead = .unanswered := by
  simp only [State.srcRead, h]

/-- R185: a listed answer with more frames than asked for. -/
theorem State.srcRead_overlong {fs : List Frame} {reads : List ReadAnswer} {rewinds : List RewindAnswer}
    (h : s.src = .script (.frames fs :: reads) rewinds) (hlen : s.par.chunkFrames < fs.length) :
    s.srcRead = .overrun := by
  simp only [State.srcRead, h, if_neg (Nat.not_le.mpr hlen)]

theorem State.refill_of_read_unanswered (h : s.srcRead = .unanswered) : s.refill = .unanswered := by
  simp only [State.refill, h]

theorem State.refill_of_read_overrun (h : s.srcRead = .overrun) : s.refill = .overrun := by
  simp only [State.refill, h]

theorem State.refillRewound_of_overrun (h : s.srcRead = .overrun) : s.refillRewound = .overrun := by
  simp only [State.refillRewound, h]

theorem State.advance_of_refill_unanswered (h : ¬ s.chunkIdx.toNat + 1 < s.chunkLen.toNat)
    (hr : s.refill = .unanswered) : s.advance = .unanswered := by
  rw [State.advance, if_neg h, hr]

theorem State.advance_of_refill_overrun (h : ¬ s.chunkIdx.toNat + 1 < s.chunkLen.toNat)
    (hr : s.refill = .overrun) : s.advance = .overrun := by
  rw [State.advance, if_neg h, hr]

/-- The read after a successful rewind (R187) is of the same source, which counting the rewind leaves alone. -/
theorem State.refill_of_rewound_overlong {fs : List Frame} {reads : List ReadAnswer} {rewinds : List RewindAnswer}
    (hread : s.srcRead = .answered (.frames []) u) (hrewind : u.srcRewind = .answered .ok w)
    (hsrc : w.src = .script (.frames fs :: reads) rewinds) (hlen : w.par.chunkFrames < fs.length) :
    s.refill = .overrun := by
  rw [State.refill_of_rewind_ok hread hrewind]
  exact State.refillRewound_of_overrun (State.srcRead_overlong (s := w.countRewind) hsrc hlen)

/-- Where the advances owed outlast the chunk, the chunk serves some of them and the next one must refill; the source is
still the same then. -/
theorem State.exists_advance_at_chunk_end (howed : 0 < s.advancesOwed)
    (hend : s.chunkLen.toNat ≤ s.chunkIdx.toNat + s.advancesOwed) :
    ∃ a v, a < s.advancesOwed ∧ s.advances a = .ok v ∧ ¬ v.chunkIdx.toNat + 1 < v.chunkLen.toNat ∧ v.src = s.src := by
  by_cases hlast : s.chunkIdx.toNat + 1 < s.chunkLen.toNat
  · obtain ⟨a, ha⟩ : ∃ a, s.chunkIdx.toNat + a + 1 = s.chunkLen.toNat :=
      ⟨s.chunkLen.toNat - s.chunkIdx.toNat - 1, by omega⟩
    have hlen := s.chunkLen.isLt
    refine ⟨a, _, by omega, State.advances_chunk (by omega), ?_, rfl⟩
    have hidx : (s.chunkIdx + BitVec.ofNat 16 a).toNat = s.chunkIdx.toNat + a := by
      rw [BitVec.toNat_add, BitVec.toNat_ofNat]
      omega
    simp only [hidx]
    omega
  · exact ⟨0, s, howed, rfl, hlast, rfl⟩

end

/-! ## A file that is not empty -/

/-- A file with at least one frame is attached, of whatever shape (R197). -/
def State.HasFile (s : State) : Prop := ∃ stereo stream pos, s.src = .file stereo stream pos ∧ stream ≠ []

section
variable {s : State} {stereo : Bool} {stream : List Frame} {pos : Nat}

/-- A read of a file, of whatever shape, delivers what is left of it, up to the frames asked for, and moves it on. -/
theorem State.srcRead_anyFile (hs : s.src = .file stereo stream pos) :
    ∃ fs u pos', s.srcRead = .answered (.frames fs) u ∧ u.src = .file stereo stream pos' ∧
      fs.length = min s.par.chunkFrames (stream.length - pos) := by
  have hlen := s.fileFrames_length s.par.chunkFrames stereo stream pos
  refine ⟨s.fileFrames s.par.chunkFrames stereo stream pos,
    s.countReq.setSrc (.file stereo stream (pos + min s.par.chunkFrames (stream.length - pos))), _, ?_, rfl, hlen⟩
  simp only [State.srcRead, hs, hlen]

theorem State.srcRewind_anyFile (hs : s.src = .file stereo stream pos) :
    s.srcRewind = .answered .ok (s.countReq.setSrc (.file stereo stream 0)) := by
  simp only [State.srcRewind, hs]

/-- The read at the start of a file that is not empty delivers frames. -/
theorem State.refillRewound_anyFile (hs : s.src = .file stereo stream 0) (hp : s.ParamsOk) (hne : stream ≠ []) :
    ∃ t, s.refillRewound = .ok t ∧ t.HasFile := by
  obtain ⟨fs, u, pos, hread, hsrc, hlen⟩ := State.srcRead_anyFile hs
  obtain ⟨hcf, -⟩ := hp
  have hstream := List.length_pos_iff.mpr hne
  have hfs : fs ≠ [] := List.length_pos_iff.mp (by omega)
  exact ⟨_, State.refillRewound_of_frames hread hfs, stereo, stream, pos, hsrc, hne⟩

/-- A file that is not empty always refills: at its end it is rewound (R187). -/
theorem State.HasFile.refill (h : s.HasFile) (hp : s.ParamsOk) : ∃ t, s.refill = .ok t ∧ t.HasFile := by
  obtain ⟨stereo, stream, pos, hs, hne⟩ := h
  obtain ⟨fs, u, pos', hread, hsrc, -⟩ := State.srcRead_anyFile hs
  by_cases hfs : fs = []
  · subst hfs
    have hrewind := State.srcRewind_anyFile hsrc
    obtain ⟨hkeep, -⟩ := State.srcRead_requestsOnly hread
    obtain ⟨hkeep', -⟩ := State.srcRewind_requestsOnly hrewind
    rw [State.refill_of_rewind_ok hread hrewind]
    refine State.refillRewound_anyFile rfl ?_ hne
    rwa [State.ParamsOk, State.countRewind_par, (hkeep.trans hkeep').par]
  · exact ⟨_, State.refill_of_frames hread hfs, stereo, stream, pos', hsrc, hne⟩

theorem State.HasFile.advance (h : s.HasFile) (hp : s.ParamsOk) : ∃ t, s.advance = .ok t ∧ t.HasFile := by
  by_cases hlt : s.chunkIdx.toNat + 1 < s.chunkLen.toNat
  · exact ⟨_, State.advance_inChunk hlt, h⟩
  · obtain ⟨t, ht, hfile⟩ := h.refill hp
    exact ⟨_, State.advance_of_refill_ok hlt ht, hfile⟩

theorem State.HasFile.advances (h : s.HasFile) (hp : s.ParamsOk) (n : Nat) : ∃ t, s.advances n = .ok t := by
  induction n generalizing s with
  | zero => exact ⟨s, rfl⟩
  | succ n ih =>
    obtain ⟨u, hu, hfile⟩ := h.advance hp
    obtain ⟨t, ht⟩ := ih hfile (State.advance_paramsOk hu hp)
    exact ⟨t, by simp only [State.advances, hu, ht]⟩

end

/-! ## What a sample step can touch -/

/-- `t` differs from `s` in nothing but what a sample step that succeeds can change (R242). -/
def State.SampleOnly (s t : State) : Prop :=
  t = { s with
    phase := t.phase, advcnt := t.advcnt, rwcnt := t.rwcnt
    chunkIdx := t.chunkIdx, chunkLen := t.chunkLen, chunk := t.chunk
    dl := t.dl, widx := t.widx, fifo := t.fifo, smpcnt := t.smpcnt
    prodRem := t.prodRem, busy := t.busy, curOp := t.curOp
    src := t.src, srcReqs := t.srcReqs }

theorem State.SampleOnly.trans {s t u : State} (h : s.SampleOnly t) (h' : t.SampleOnly u) : s.SampleOnly u := by
  unfold State.SampleOnly at *
  rw [h] at h'
  exact h'

theorem State.UpsamplerOnly.sampleOnly {s t : State} (h : s.UpsamplerOnly t) : s.SampleOnly t := by
  unfold State.UpsamplerOnly at h
  unfold State.SampleOnly
  rw [h]

theorem State.finishSample_sampleOnly (s : State) : s.SampleOnly s.finishSample := by
  unfold State.SampleOnly
  rw [State.finishSample_eq rfl]
  rfl

/-! ## The bytes of the two memories after a sample step -/

/-- A byte of the window depends on the register at its word only. -/
theorem State.windowByte_congr {s t : State} {off : Nat}
    (h : t.readReg (regAt (off / 4 * 4)) = s.readReg (regAt (off / 4 * 4))) : t.windowByte off = s.windowByte off := by
  rw [State.windowByte, State.windowByte, h]

theorem State.windowByte_coef {s t : State} {off : Nat} (hoff : 0x100 ≤ off ∧ off < 0x200) (h : t.coef = s.coef) :
    t.windowByte off = s.windowByte off := by
  refine State.windowByte_congr ?_
  rw [regAt_coef (by omega)]
  simp only [State.readReg, h]

/-- A write of one delay-line entry leaves the bytes of the others (43_fir.md R215). -/
theorem State.windowByte_dl {s t : State} {off w : Nat} {x : Word} (hoff : 0x200 ≤ off ∧ off < 0x3FC) (hw : w ≤ 126)
    (hne : off / 4 * 4 ≠ 0x200 + 4 * w) (h : t.dl = s.dl.set (dlIndex w) x) :
    t.windowByte off = s.windowByte off := by
  refine State.windowByte_congr ?_
  have hentry : (dlIndex w).val ≠ (off / 4 * 4 - 0x200) / 4 := by
    rw [dlIndex_natCast]
    omega
  rw [regAt_dl (by omega)]
  simp only [State.readReg, h, Fin.getElem_fin]
  exact Vector.getElem_set_ne _ _ hentry

/-! ## The statements -/

/-- Settles O11: each outcome of the phase step in its equation of the sample step. -/
theorem prodStepMakesOneSample : Obligations.ProdStepMakesOneSample := by
  unfold Obligations.ProdStepMakesOneSample
  refine fun n s hb => ⟨fun hrem => ?empty, fun hrem hroom => ⟨fun u v hu hv => ?sample, fun e p u hu => ?fails⟩⟩
  case empty => exact (execProd_busy n hb).trans (State.prodStep_of_none_owed hrem)
  case sample =>
    rw [← State.finishSample_eq hv]
    exact (execProd_busy n hb).trans (State.prodStep_of_ok hrem hroom hu)
  case fails => exact (execProd_busy n hb).trans (State.prodStep_of_fail hrem hroom hu)

/-- Settles O12: the issue in `RUNNING`, and the step that asks for nothing but `PROD_REM`. -/
theorem prodZeroOnlyCompletes : Obligations.ProdZeroOnlyCompletes := by
  unfold Obligations.ProdZeroOnlyCompletes
  exact ⟨fun s hb hm => (execProd_idle 0 hb).trans (if_pos hm),
    fun s hb hrem => (execProd_busy 0 hb).trans (State.prodStep_of_none_owed hrem)⟩

/-- Settles O13: a full FIFO disables the step; the word that a read removes makes room. -/
theorem prodHoldsWhileTheFifoIsFull : Obligations.ProdHoldsWhileTheFifoIsFull := by
  unfold Obligations.ProdHoldsWhileTheFifoIsFull
  refine ⟨fun n s hb hop hrem hfull => ⟨?held, State.stall_iff.mpr ⟨hb, hop, hrem, hfull⟩, fun hdepth => ?read⟩,
    fun n s t h => execProd_fifo_prefix h⟩
  case held => exact (execProd_busy n hb).trans (State.prodStep_of_full hrem hfull.not_lt)
  case read =>
    obtain ⟨w, ws, hf⟩ : ∃ w ws, s.fifo = w :: ws := List.exists_cons_of_length_pos (hfull ▸ hdepth)
    have hread : s.hostRead 0x01C = ({ s with fifo := ws } : State).setRdata w := by
      rw [State.hostRead_outData, State.pop_cons hf]
    have hroom : (s.hostRead 0x01C).fifo.length < (s.hostRead 0x01C).par.outDepth := by
      rw [hread, State.setRdata_fifo, State.setRdata_par, ← hfull, hf]
      exact Nat.lt_succ_self _
    exact ⟨State.stall_of_room hroom, hroom, w, by rw [hread, hf]; rfl, by rw [hread]; rfl⟩

/-- Settles O15: the phase step succeeds, with no advance owed or because the file serves every advance; what the step
then leaves is `finishSample`'s update of a state in which only the upsampler has moved. -/
theorem prodProducesItsSample : Obligations.ProdProducesItsSample := by
  unfold Obligations.ProdProducesItsSample
  intro n s hinv hb hop hrem hroom hcan
  obtain ⟨hp, ⟨-, hw⟩, -, ⟨-, hbusy⟩, -⟩ := hinv
  obtain ⟨-, -, hprod⟩ := hbusy hb
  have hrun : s.mode = .running := hprod hop
  obtain ⟨u, hu⟩ : ∃ u, s.phaseStep = .ok u := by
    rcases hcan with hnone | hfile
    · exact ⟨_, State.phaseStep_of_none_owed hnone⟩
    · obtain ⟨v, hv⟩ := State.HasFile.advances hfile hp s.advancesOwed
      exact ⟨_, State.phaseStep_of_advances hv⟩
  obtain ⟨hkeep, hphase, -⟩ := State.phaseStep_ok hu
  obtain ⟨y, -, hfin⟩ := u.finishSample_spec
  have hframe : s.SampleOnly u.finishSample := hkeep.sampleOnly.trans u.finishSample_sampleOnly
  have hrem' : u.finishSample.prodRem = s.prodRem - 1 := by rw [hfin, hkeep.prodRem]
  have hlast : s.prodRem - 1 = 0 ↔ s.prodRem = 1 := sub_eq_zero
  have hbusy' : u.finishSample.busy = if s.prodRem = 1 then false else true := by
    simp only [hfin, hkeep.prodRem, hkeep.busy, hb, hlast]
  have hstep : exec (.prod n) s = .next u.finishSample :=
    (execProd_busy n hb).trans (State.prodStep_of_ok hrem hroom hu)
  refine ⟨u.finishSample, y, hstep, ?fifo, ?smpcnt, ?mode, ?err, ?phase, ?widx, ?busy, hrem' ▸ hframe,
    fun off hoff => ?bytes⟩
  case fifo => rw [hfin, hkeep.fifo]
  case smpcnt => rw [hfin, hkeep.smpcnt]
  case mode => rw [hfin, hkeep.mode, hrun]
  case err => rw [hfin, hkeep.err]
  case phase => rw [hfin, hphase]; rfl
  case widx =>
    rw [hfin, ← hkeep.widx]
    exact u.insert_widx_toNat u.currentSample
  case busy =>
    rw [hbusy']
    split <;> simp only [*, Bool.true_eq_false]
  case bytes =>
    rcases hoff with hcoef | ⟨hlo, hhi, hne⟩
    · exact State.windowByte_coef hcoef (by rw [hfin, hkeep.coef])
    · refine State.windowByte_dl (x := u.currentSample) ⟨hlo, hhi⟩ hw hne ?_
      simp only [hfin, hkeep.dl, hkeep.widx]

/-- Settles O16: the advance that must refill gets no answer, or too long a one, and so does the phase step
(`phaseStep_of_advance_unanswered`, `phaseStep_of_advance_overrun`); the silent source's advance is found by
`exists_advance_at_chunk_end`. -/
theorem undutifulSourceHoldsOrIsRefused : Obligations.UndutifulSourceHoldsOrIsRefused := by
  unfold Obligations.UndutifulSourceHoldsOrIsRefused
  have held : ∀ (n a : Nat) (s v : State), s.busy = true → s.prodRem ≠ 0 → s.fifo.length < s.par.outDepth →
      a < s.advancesOwed → s.advances a = .ok v → ¬ v.chunkIdx.toNat + 1 < v.chunkLen.toNat → v.src = .silent →
      exec (.prod n) s = .next s := by
    intro n a s v hb hrem hroom ha hv hlast hsrc
    have hadv := State.advance_of_refill_unanswered hlast (State.refill_of_read_unanswered (State.srcRead_silent hsrc))
    exact (execProd_busy n hb).trans
      (State.prodStep_of_unanswered hrem hroom (State.phaseStep_of_advance_unanswered hv ha hadv))
  refine ⟨fun n a s v hb hrem hroom ha hv hlast => ⟨held n a s v hb hrem hroom ha hv hlast, ?_⟩,
    fun n s hb hrem hroom hsrc howed hend => ⟨?silent, State.hostWrite_reset (by decide), rfl⟩⟩
  · have refused : v.refill = .overrun → exec (.prod n) s = .refused .sourceOverrun := fun hrefill =>
      (execProd_busy n hb).trans (State.prodStep_of_overrun hrem hroom
        (State.phaseStep_of_advance_overrun hv ha (State.advance_of_refill_overrun hlast hrefill)))
    exact ⟨fun fs reads rewinds hsrc hlen =>
        refused (State.refill_of_read_overrun (State.srcRead_overlong hsrc hlen)),
      fun u w fs reads rewinds hread hrewind hsrc hlen =>
        refused (State.refill_of_rewound_overlong hread hrewind hsrc hlen)⟩
  case silent =>
    have hpos : 0 < s.advancesOwed := Nat.div_pos howed (by decide)
    obtain ⟨a, v, ha, hv, hlast, hsame⟩ := State.exists_advance_at_chunk_end hpos hend
    exact held n a s v hb hrem hroom ha hv hlast (hsame.trans hsrc)

end Sys2Proof.Machine
end

section
/-! What every step keeps: the invariants of 10_state.md R64, and the count law of a run (42_upsampler.md R193,
44_baseband_commands.md R248). -/

namespace Sys2Proof

/-! ## Opcodes -/

theorem Instr.op_le (i : Instr) : i.op.toNat ≤ 4 := by
  cases i <;> simp [Instr.op]

theorem Instr.op_eq_prod {i : Instr} (h : i.op = 0x02) : ∃ n, i = .prod n := by
  cases i with
  | prod n => exact ⟨n, rfl⟩
  | nop | init | halt | tune => exact absurd h (by decide)

end Sys2Proof

namespace Sys2Proof.Machine

section
variable {s t u : State}

/-! ## The step of the executing command -/

theorem State.seqNext_busy (h : s.seqNext = true) : s.busy = true := (Bool.and_eq_true_iff.mp h).1

theorem State.runsNext_of_seqNext {op : BitVec 8} (h : s.seqNext = true) (hop : s.curOp = op) :
    s.runsNext op = true := by
  simp only [State.runsNext, h, hop, beq_self_eq_true, Bool.and_self]

/-- The sequencer's step is that of the command the state names, whatever turns are to come. -/
theorem SeqCase.of_seqNext {i : Instr} {ts : List Turn} (hn : s.seqNext = true) (hc : s.command? = some i)
    (he : exec i (s.withAgenda ts) = .next t) : SeqCase (s.withAgenda ts) t :=
  exec_busy_next (s := s.withAgenda ts) (show s.busy = true from State.seqNext_busy hn) hc he

/-! ## Updates that keep the invariants -/

theorem State.Inv.withAgenda (h : s.Inv) (ts : List Turn) : (s.withAgenda ts).Inv := h

/-- A completed command leaves the sequencer triple 0 (R64). -/
theorem State.Inv.complete (h : s.Inv) : s.complete.Inv := by
  obtain ⟨hp, hd, hb, -, hr⟩ := h
  exact ⟨hp, hd, hb, ⟨fun _ => ⟨rfl, rfl⟩, nofun⟩, hr⟩

/-- A command is accepted with its opcode; only a `PROD`, in `RUNNING`, with samples owed (40_sequencer.md R131). -/
theorem State.Inv.accept (h : s.Inv) {op : BitVec 8} {n : BitVec 16} (hop : op.toNat ≤ 4) (hn : op ≠ 0x02 → n = 0)
    (hm : op = 0x02 → s.mode = .running) : (s.accept op n).Inv := by
  obtain ⟨hp, hd, hb, -, hr⟩ := h
  exact ⟨hp, hd, hb, ⟨nofun, fun _ => ⟨hop, hn, hm⟩⟩, hr⟩

/-- Outside `RUNNING` the invariants ask nothing of the phase and the run. -/
theorem State.Inv.setMode_complete (h : s.Inv) {m : Mode} (hm : m ≠ .running) : (s.setMode m).complete.Inv := by
  obtain ⟨hp, ⟨-, hw⟩, hb, -, -⟩ := h
  exact ⟨hp, ⟨fun hk => absurd hk hm, hw⟩, hb, ⟨fun _ => ⟨rfl, rfl⟩, nofun⟩, fun hk => absurd hk hm⟩

theorem State.Inv.resetBlock (h : s.Inv) : s.resetBlock.Inv := by
  obtain ⟨hp, -⟩ := h
  exact ⟨hp, ⟨nofun, Nat.zero_le _⟩, ⟨s.resetBlock_wf, .inl rfl⟩, ⟨fun _ => ⟨rfl, rfl⟩, nofun⟩, nofun⟩

theorem State.Inv.pop (h : s.Inv) : s.pop.2.Inv := by
  obtain ⟨hp, hd, ⟨hwf, hc⟩, hs, hr⟩ := h
  have hwf' := State.pop_wf hwf
  rcases s.pop_spec with ⟨-, h⟩ | ⟨w, rest, -, h⟩ <;> rw [h] at hwf' ⊢ <;> exact ⟨hp, hd, ⟨hwf', hc⟩, hs, hr⟩

/-- The phase at which a run starts (42_upsampler.md R182). -/
theorem State.startRun_phase_toNat (s : State) : s.startRun.phase.toNat = initialPhase s.rate.toNat := by
  have hle : initialPhase s.rate.toNat ≤ Config.outRate := Nat.sub_le _ _
  rw [State.startRun_phase, BitVec.toNat_ofNat]
  exact Nat.mod_eq_of_lt (hle.trans_lt (by decide))

/-- `INIT` with a rate: the phase is below 192000, and the first phase step advances (42_upsampler.md R194). -/
theorem State.Inv.startRun_complete (h : s.Inv) (hr : s.rate ≠ 0) : s.startRun.complete.Inv := by
  obtain ⟨hp, -, ⟨hwf, -⟩, -, -⟩ := h
  have hpos : 0 < s.rate.toNat := Nat.pos_of_ne_zero fun hz => hr (BitVec.eq_of_toNat_eq hz)
  have hphase : s.startRun.complete.phase.toNat = Config.outRate - s.rate.toNat := s.startRun_phase_toNat
  have hrate : s.startRun.complete.rate = s.rate := rfl
  have hwf' : Memory.wf s.startRun := State.startRun_wf hwf
  refine ⟨hp, ⟨fun _ => ?_, Nat.zero_le _⟩, ⟨hwf', .inl rfl⟩, ⟨fun _ => ⟨rfl, rfl⟩, nofun⟩,
    fun _ => ⟨hr, fun _ => ?_, nofun⟩⟩
  · rw [hphase]
    exact Nat.sub_lt (by decide) hpos
  · rw [hphase, hrate]
    omega

/-- A sample step that succeeds: the phase step leaves a remainder and a current frame, and the push found room. -/
theorem State.Inv.finishSample (h : s.Inv) (hb : s.busy = true) (hop : s.curOp = 0x02)
    (hroom : s.fifo.length < s.par.outDepth) (hu : s.phaseStep = .ok u) : u.finishSample.Inv := by
  have ⟨hp, _, _, ⟨_, hbusy⟩, hrunOk⟩ := h
  obtain ⟨hop4, -, hprod⟩ := hbusy hb
  have hrun : s.mode = .running := hprod hop
  obtain ⟨hrate, -, -⟩ := hrunOk hrun
  obtain ⟨hkeep, hphase, -⟩ := State.phaseStep_ok hu
  obtain ⟨hcur, hlen, hchunk⟩ := State.phaseStep_hasFrame h hrun hu
  obtain ⟨y, -, hfin⟩ := u.finishSample_spec
  have hwidx : (BitVec.ofNat 7 ((u.widx.toNat + 1) % 127)).toNat = (u.widx.toNat + 1) % 127 :=
    u.insert_widx_toNat u.currentSample
  rw [hfin]
  refine ⟨hkeep.par ▸ hp, ⟨fun _ => ?phase, ?widx⟩, ⟨⟨?fifo, hchunk, hlen⟩, .inr hcur⟩, ⟨?idle, ?busy⟩,
    fun _ => ⟨hkeep.rate ▸ hrate, fun hz => ?unread, fun _ => ?read⟩⟩
  case phase =>
    rw [hphase]
    exact Nat.mod_lt _ (by decide)
  case widx =>
    rw [hwidx]
    omega
  case fifo =>
    rw [List.length_append, hkeep.fifo, hkeep.par]
    exact hroom
  case idle =>
    intro hidle
    by_cases hlast : u.prodRem - 1 = 0
    · exact ⟨if_pos hlast, hlast⟩
    · rw [if_neg hlast, hkeep.busy, hb] at hidle
      cases hidle
  case busy =>
    intro hstill
    by_cases hlast : u.prodRem - 1 = 0
    · rw [if_pos hlast] at hstill
      cases hstill
    · simp only [if_neg hlast, hkeep.curOp, hkeep.mode]
      exact ⟨hop4, fun hne => absurd hop hne, fun _ => hrun⟩
  case unread =>
    rw [hz] at hcur
    exact absurd hcur (Nat.not_lt_zero _)
  case read => exact Nat.one_le_of_lt hcur

/-- A sample step that fails leaves the run at fault, with the buffers within their bounds (44_baseband_commands.md
R244). -/
theorem State.Inv.failSample (h : s.Inv) {e : Cause} {p : Nat} (hu : s.phaseStep = .fail e p u) :
    (u.failSample e p).Inv := by
  obtain ⟨⟨hcf, hcf', hdepth⟩, ⟨-, hw⟩, ⟨⟨hfifo, hchunk, hlen⟩, hcur⟩, -, -⟩ := h
  obtain ⟨-, hkeep, -⟩ := State.phaseStep_fail hu
  obtain ⟨hchunk', hlen', hcur'⟩ := State.phaseLoop_fail_buffers hu hcf' hchunk hlen hcur
  have hp' : u.ParamsOk := by rw [State.ParamsOk, hkeep.par]; exact ⟨hcf, hcf', hdepth⟩
  have hfifo' : u.fifo.length ≤ u.par.outDepth := by rwa [hkeep.fifo, hkeep.par]
  exact ⟨hp', ⟨nofun, hkeep.widx ▸ hw⟩, ⟨⟨hfifo', hchunk', hlen'⟩, hcur'⟩,
    ⟨fun _ => ⟨rfl, rfl⟩, nofun⟩, nofun⟩

/-- The step of `TUNE` touches nothing that the invariants speak of but the sequencer triple. -/
theorem State.Inv.tuneStep (h : s.Inv) : s.tuneStep.Inv := by
  rw [s.tuneStep_frame]
  exact h.complete

/-! ## The invariants over one step -/

theorem SeqCase.inv (h : SeqCase s t) (hinv : s.Inv) (hb : s.busy = true) : t.Inv := by
  cases h with
  | nop _ ht | prodEmpty _ _ ht => exact ht ▸ hinv.complete
  | initFails _ _ ht => exact ht ▸ hinv.complete
  | init _ hr ht => exact ht ▸ hinv.startRun_complete hr
  | prodHeld _ _ ht => exact ht ▸ hinv
  | prodSample u hop _ hroom hu ht => exact ht ▸ hinv.finishSample hb hop hroom hu
  | prodFails e p u _ _ _ hu ht => exact ht ▸ hinv.failSample hu
  | halt _ ht => exact ht ▸ hinv.setMode_complete nofun
  | tune _ ht => exact ht ▸ hinv.tuneStep

theorem exec_idle_inv {i : Instr} (hinv : s.Inv) (hb : s.busy = false) (h : exec i s = .next t) : t.Inv := by
  rcases exec_idle_next hb h with ⟨hi, rfl⟩ | ⟨n, -, hm, rfl⟩ | ⟨n, -, -, rfl⟩
  · refine hinv.accept i.op_le (fun _ => rfl) fun hop => ?_
    obtain ⟨n, hn⟩ := Instr.op_eq_prod hop
    exact absurd hn (hi n)
  · exact hinv.accept (by decide) (fun hne => absurd rfl hne) fun _ => hm
  · exact hinv

/-- R64, for one step of any agent: outside a command's issue and step, only a reset and a read of `OUT_DATA` touch what
the invariants speak of, and a write of `RATE`, which `RUNNING` locks. -/
theorem StepCase.inv (h : StepCase s t) (hinv : s.Inv) : t.Inv := by
  cases h with
  | idle ts ht | clearErr _ ts _ ht | raise _ ts ht | inputs ts _ ht | read _ ts _ ht | attach _ ts _ ht =>
    rw [ht]
    exact hinv
  | seq i ts hn hc he =>
    have hb : s.busy = true := State.seqNext_busy hn
    exact (SeqCase.of_seqNext hn hc he).inv (hinv.withAgenda ts) hb
  | issue i v ts _ hb _ he => exact exec_idle_inv (hinv.withAgenda ts) hb he
  | reset ts _ ht =>
    rw [ht]
    exact (hinv.withAgenda ts).resetBlock
  | config ts _ hm ht =>
    obtain ⟨hp, hd, hbuf, hs, -⟩ := hinv
    rw [ht]
    exact ⟨hp, hd, hbuf, hs, fun hk => absurd hk hm⟩
  | pop ts _ ht =>
    rw [ht]
    exact (hinv.withAgenda ts).pop

/-! ## The count law over one step -/

/-- Outside `RUNNING` the count law asks nothing. -/
theorem State.CountLaw.of_not_running (h : s.mode ≠ .running) : s.CountLaw := fun hk => absurd hk h

theorem State.countLaw_startRun_complete (s : State) : s.startRun.complete.CountLaw := by
  have hphase : s.startRun.complete.phase.toNat = initialPhase s.rate.toNat := s.startRun_phase_toNat
  refine fun _ => ⟨0, 0, ?_, rfl, rfl, rfl⟩
  rw [hphase, Nat.mul_zero, Nat.zero_mul, Nat.zero_add, Nat.add_zero]
  rfl

/-- One sample more: the advances of its phase step, the phase they leave, and one step of `RATE` (R193). -/
theorem State.CountLaw.finishSample (h : s.CountLaw) (hu : s.phaseStep = .ok u) : u.finishSample.CountLaw := by
  obtain ⟨hkeep, hphase, hadv, -⟩ := State.phaseStep_ok hu
  obtain ⟨y, -, hfin⟩ := u.finishSample_spec
  rw [hfin]
  intro hm
  obtain ⟨a, m, hlaw, ha, hsmp, hw⟩ := h (hkeep.mode.symm.trans hm)
  refine ⟨a + s.advancesOwed, m + 1, ?_, ?_, ?_, ?_⟩
  · have hdiv : Config.outRate * s.advancesOwed + s.nextPhase % Config.outRate = s.phase.toNat + s.rate.toNat :=
      Nat.div_add_mod _ _
    simp only [hphase, hkeep.rate]
    linarith
  · simp only [hadv, ha, BitVec.ofNat_add]
  · simp only [hkeep.smpcnt, hsmp, BitVec.ofNat_add]
    rfl
  · refine (u.insert_widx_toNat u.currentSample).trans ?_
    rw [hkeep.widx, hw, Nat.mod_add_mod]

theorem State.CountLaw.tuneStep (h : s.CountLaw) : s.tuneStep.CountLaw := by
  rw [s.tuneStep_frame]
  exact h

theorem SeqCase.countLaw (h : SeqCase s t) (hlaw : s.CountLaw) : t.CountLaw := by
  cases h with
  | nop _ ht | initFails _ _ ht | prodEmpty _ _ ht | prodHeld _ _ ht => exact ht ▸ hlaw
  | init _ _ ht => exact ht ▸ s.countLaw_startRun_complete
  | prodSample u _ _ _ hu ht => exact ht ▸ hlaw.finishSample hu
  | prodFails e p u _ _ _ _ ht => exact ht ▸ .of_not_running nofun
  | halt _ ht => exact ht ▸ .of_not_running nofun
  | tune _ ht => exact ht ▸ hlaw.tuneStep

theorem State.CountLaw.pop (h : s.CountLaw) : s.pop.2.CountLaw := by
  rcases s.pop_spec with ⟨-, hp⟩ | ⟨w, rest, -, hp⟩ <;> rw [hp] <;> exact h

/-- The count law of R193 and R248, for one step of any agent. -/
theorem StepCase.countLaw (h : StepCase s t) (hlaw : s.CountLaw) : t.CountLaw := by
  cases h with
  | idle ts ht | clearErr _ ts _ ht | raise _ ts ht | inputs ts _ ht | read _ ts _ ht | attach _ ts _ ht =>
    rw [ht]
    exact hlaw
  | seq i ts hn hc he => exact (SeqCase.of_seqNext hn hc he).countLaw hlaw
  | issue i v ts _ hb _ he =>
    rcases exec_idle_next (s := s.withAgenda ts) hb he with ⟨-, rfl⟩ | ⟨n, -, -, rfl⟩ | ⟨n, -, -, rfl⟩ <;> exact hlaw
  | reset ts _ ht =>
    rw [ht]
    exact .of_not_running nofun
  | config ts _ hm ht =>
    rw [ht]
    exact .of_not_running hm
  | pop ts _ ht =>
    rw [ht]
    exact State.CountLaw.pop (s := s.withAgenda ts) hlaw

end

/-! ## The statements -/

/-- Settles O57: the cases of a step (`StepCase.inv`). -/
theorem invariantsAreKeptByEveryStep : Obligations.InvariantsAreKeptByEveryStep := by
  unfold Obligations.InvariantsAreKeptByEveryStep
  exact fun s t hinv h => (step_next h).inv hinv

/-- Settles O23: the cases of a step (`StepCase.countLaw`); the phase step's own equations carry the law, so it needs
nothing of the invariants. -/
theorem countLawIsKept : Obligations.CountLawIsKept := by
  unfold Obligations.CountLawIsKept
  exact ⟨fun s t _ hlaw h => (step_next h).countLaw hlaw, .of_not_running nofun⟩

/-- Settles O56: every field the invariants speak of is 0, `IDLE` or empty, and the parameters are the defaults. -/
theorem invariantsHoldAtReset : Obligations.InvariantsHoldAtReset := by
  unfold Obligations.InvariantsHoldAtReset
  exact ⟨by decide, ⟨nofun, Nat.zero_le _⟩, ⟨reset_wf, .inl rfl⟩, ⟨fun _ => ⟨rfl, rfl⟩, nofun⟩, nofun⟩

end Sys2Proof.Machine
end

section
/-! Turns: which command a turn issues or runs, `WAIT`, the accesses that are refused, and that a lawful turn always has
a next state (40_sequencer.md R130 to R137; 20_memory.md R81, R82; 30_encoding.md R112, R118; 42_upsampler.md R185). -/

namespace Sys2Proof.Machine

section
variable {s t u : State}

/-! ## The sequencer's turn -/

theorem State.command?_prod (h : s.curOp = 0x02) : s.command? = some (.prod s.prodRem.toNat) := by
  simp only [State.command?, h]
  rfl

/-- An accepted command is the one that `CUR_OP` and `PROD_REM` then name (R131, R137). -/
theorem State.command?_accept {i : Instr} (hi : ∀ n, i ≠ .prod n) : (s.accept i.op 0).command? = some i := by
  cases i with
  | prod n => exact absurd rfl (hi n)
  | nop | init | halt | tune => rfl

theorem State.command?_accept_prod {n : Nat} (h : n ≤ 65535) :
    (s.accept 0x02 (BitVec.ofNat 16 n)).command? = some (.prod n) := by
  rw [State.command?_prod rfl, State.accept_prodRem, BitVec.toNat_ofNat, Nat.mod_eq_of_lt (by omega)]

/-- While `BUSY = 1` the invariants leave `CUR_OP` a command's (R137). -/
theorem State.command?_of_le (h : s.curOp.toNat ≤ 4) : ∃ i, s.command? = some i := by
  have hop : s.curOp = BitVec.ofNat 8 s.curOp.toNat := by simp
  unfold State.command?
  generalize s.curOp.toNat = n at h hop
  interval_cases n <;> rw [hop] <;> exact ⟨_, rfl⟩

theorem State.seqTurn_of_command {i : Instr} (hb : s.busy = true) (hc : s.command? = some i) :
    s.seqTurn = exec i s := by
  simp only [State.seqTurn, hb, hc, if_true]

theorem State.seqTurn_idle (hb : s.busy = false) : s.seqTurn = .next s := by
  simp only [State.seqTurn, hb, Bool.false_eq_true, if_false]

theorem step_of_agenda_nil (h : s.agenda = []) : step s = s.seqTurn := by
  simp only [step, h]

theorem step_of_seq {ts : List Turn} (h : s.agenda = .seq :: ts) : step s = (s.withAgenda ts).seqTurn :=
  step_cons h

/-- While a command executes, a `WAIT` stays first and the sequencer steps (log 5). -/
theorem step_of_wait_busy {ts : List Turn} (h : s.agenda = .wait :: ts) (hb : s.busy = true) : step s = s.seqTurn := by
  have hsame : ({ s.withAgenda ts with agenda := .wait :: ts } : State) = s := by
    rw [← h]
    rfl
  calc step s = (s.withAgenda ts).turn .wait := step_cons h
    _ = ({ s.withAgenda ts with agenda := .wait :: ts } : State).seqTurn := if_pos hb
    _ = s.seqTurn := by rw [hsame]

theorem step_of_wait_idle {ts : List Turn} (h : s.agenda = .wait :: ts) (hb : s.busy = false) :
    step s = .next (s.withAgenda ts) := by
  have hb' : ¬ (s.withAgenda ts).busy = true := Bool.eq_false_iff.mp hb
  exact (step_cons h).trans (if_neg hb')

theorem step_of_write_cmd {ts : List Turn} {v : Word} {i : Instr} (h : s.agenda = .write 0x014 4 v :: ts)
    (hb : s.busy = false) (hd : decode v = .command i) : step s = exec i (s.withAgenda ts) := by
  rw [step_cons h, State.turn_write (by decide) (by decide)]
  exact State.hostWrite_cmd_command (s := s.withAgenda ts) hb hd

/-- The sequencer's step leaves the turns to come as they are. -/
theorem SeqCase.agenda (h : SeqCase s t) : t.agenda = s.agenda := by
  cases h with
  | nop _ ht | initFails _ _ ht | init _ _ ht | prodEmpty _ _ ht | prodHeld _ _ ht | halt _ ht => subst ht; rfl
  | prodSample u _ _ _ hu ht =>
    obtain ⟨hkeep, -⟩ := State.phaseStep_ok hu
    rw [ht, State.finishSample_eq rfl]
    exact hkeep.agenda
  | prodFails e p u _ _ _ hu ht =>
    obtain ⟨-, hkeep, -⟩ := State.phaseStep_fail hu
    rw [ht]
    exact hkeep.agenda
  | tune _ ht => rw [ht, s.tuneStep_frame]; rfl

/-! ## A source that keeps to what it was asked for -/

/-- The attached source lists no answer longer than `CHUNK_FRAMES` (42_upsampler.md R185). -/
def State.Dutiful (s : State) : Prop := s.src.dutiful s.par.chunkFrames = true

/-- The request was not answered with too many frames, and the source it leaves is dutiful. -/
def Reply.StaysDutiful {α : Type} : Reply α → Prop
  | .answered _ t => t.Dutiful
  | .unanswered => True
  | .overrun => False

/-- No request was answered with too many frames; after success, the source left is dutiful. -/
def Advanced.StaysDutiful : Advanced → Prop
  | .ok t => t.Dutiful
  | .fail _ _ => True
  | .unanswered => True
  | .overrun => False

/-- Where a dutiful script lists a read, its frames are no more than asked for and the rest is dutiful. -/
theorem Source.dutiful_script_cons {n : Nat} {r : ReadAnswer} {reads : List ReadAnswer} {rewinds : List RewindAnswer}
    (h : (Source.script (r :: reads) rewinds).dutiful n = true) :
    (∀ fs, r = .frames fs → fs.length ≤ n) ∧ (Source.script reads rewinds).dutiful n = true := by
  simp only [Source.dutiful, List.all_cons, Bool.and_eq_true] at h
  refine ⟨fun fs hr => ?_, h.2⟩
  subst hr
  simpa using h.1

theorem State.Dutiful.srcRead (h : s.Dutiful) : s.srcRead.StaysDutiful := by
  have hd : s.src.dutiful s.par.chunkFrames = true := h
  unfold State.srcRead
  split <;> rename_i hsrc <;> rw [hsrc] at hd
  · obtain ⟨hlen, hrest⟩ := Source.dutiful_script_cons hd
    rw [if_pos (hlen _ rfl)]
    exact hrest
  · obtain ⟨-, hrest⟩ := Source.dutiful_script_cons hd
    exact hrest
  · exact h
  · rfl
  · exact h
  · trivial

theorem State.Dutiful.srcRewind (h : s.Dutiful) : s.srcRewind.StaysDutiful := by
  have hd : s.src.dutiful s.par.chunkFrames = true := h
  unfold State.srcRewind
  split <;> rename_i hsrc <;> rw [hsrc] at hd
  · exact hd
  · exact h
  · rfl
  · exact h
  · trivial

theorem State.Dutiful.refillRewound (h : s.Dutiful) : s.refillRewound.StaysDutiful := by
  have hread := h.srcRead
  unfold State.refillRewound
  split <;> rename_i hr <;> rw [hr] at hread
  · trivial
  · trivial
  · exact hread
  · trivial
  · exact hread

theorem State.Dutiful.refill (h : s.Dutiful) : s.refill.StaysDutiful := by
  have hread := h.srcRead
  unfold State.refill
  split <;> rename_i hr <;> rw [hr] at hread
  · trivial
  · have hread : State.Dutiful _ := hread
    have hrewind := hread.srcRewind
    split <;> rename_i hw <;> rw [hw] at hrewind
    · trivial
    · exact State.Dutiful.refillRewound hrewind
    · trivial
    · exact hrewind
  · exact hread
  · trivial
  · exact hread

theorem State.Dutiful.advance (h : s.Dutiful) : s.advance.StaysDutiful := by
  have hrefill := h.refill
  unfold State.advance
  split
  · exact h
  · cases hr : s.refill <;> rw [hr] at hrefill <;> exact hrefill

theorem State.Dutiful.advances (h : s.Dutiful) {n : Nat} (ht : s.advances n = .ok t) : t.Dutiful := by
  induction n generalizing s with
  | zero => cases ht; exact h
  | succ n ih =>
    have hadv := h.advance
    simp only [State.advances] at ht
    split at ht
    · rename_i u hu
      rw [hu] at hadv
      exact ih hadv ht
    · rename_i hne
      exact absurd ht (hne t)

/-- A dutiful source overruns no phase step: the advance that did would be the first to be answered too much. -/
theorem State.Dutiful.phaseStep_ne_overrun (h : s.Dutiful) : s.phaseStep ≠ .overrun := by
  intro hover
  obtain ⟨-, -, -, hinv⟩ := s.phaseStep_inv
  obtain ⟨a, v, -, hv, hadv⟩ := hinv hover
  have hstays := (h.advances hv).advance
  rw [hadv] at hstays
  exact hstays

/-! ## Progress -/

theorem Proceeds.of_eq {o : Out} (h : o = .next t) : Proceeds o := ⟨t, h⟩

/-- The step of a `PROD` has a next state unless its phase step is overrun (R185). -/
theorem State.prodStep_proceeds_or_overrun (s : State) :
    Proceeds s.prodStep ∨ (s.prodStep = .refused .sourceOverrun ∧ s.phaseStep = .overrun) := by
  by_cases hrem : s.prodRem = 0
  · exact .inl (.of_eq (State.prodStep_of_none_owed hrem))
  by_cases hroom : s.fifo.length < s.par.outDepth
  · cases hp : s.phaseStep with
    | ok u => exact .inl (.of_eq (State.prodStep_of_ok hrem hroom hp))
    | fail e p u => exact .inl (.of_eq (State.prodStep_of_fail hrem hroom hp))
    | unanswered => exact .inl (.of_eq (State.prodStep_of_unanswered hrem hroom hp))
    | overrun => exact .inr ⟨State.prodStep_of_overrun hrem hroom hp, rfl⟩
  · exact .inl (.of_eq (State.prodStep_of_full hrem hroom))

theorem exec_idle_proceeds (i : Instr) (hb : s.busy = false) : Proceeds (exec i s) := by
  cases i with
  | nop => exact .of_eq (execNop_idle hb)
  | init => exact .of_eq (execInit_idle hb)
  | prod n =>
    by_cases hm : s.mode = .running
    · exact .of_eq ((execProd_idle n hb).trans (if_pos hm))
    · exact .of_eq ((execProd_idle n hb).trans (if_neg hm))
  | halt => exact .of_eq (execHalt_idle hb)
  | tune => exact .of_eq (execTune_idle hb)

theorem exec_busy_proceeds_or_overrun (i : Instr) (hb : s.busy = true) :
    Proceeds (exec i s) ∨ (exec i s = .refused .sourceOverrun ∧ s.phaseStep = .overrun) := by
  cases i with
  | nop => exact .inl (.of_eq (execNop_busy hb))
  | init =>
    by_cases hr : s.rate = 0
    · exact .inl (.of_eq (execInit_noRate hb hr))
    · exact .inl (.of_eq (execInit_rate hb hr))
  | prod n =>
    rw [show exec (.prod n) s = s.prodStep from execProd_busy n hb]
    exact s.prodStep_proceeds_or_overrun
  | halt => exact .inl (.of_eq (execHalt_busy hb))
  | tune => exact .inl (.of_eq (execTune_busy hb))

/-- The sequencer's turn, in a state whose `CUR_OP` is a command's while `BUSY = 1` (R137). -/
theorem State.seqTurn_proceeds_or_overrun (hs : s.SequencerOk) :
    Proceeds s.seqTurn ∨ (s.seqTurn = .refused .sourceOverrun ∧ s.phaseStep = .overrun) := by
  cases hb : s.busy with
  | false => exact .inl (.of_eq (State.seqTurn_idle hb))
  | true =>
    obtain ⟨-, hbusy⟩ := hs
    obtain ⟨hop, -⟩ := hbusy hb
    obtain ⟨i, hc⟩ := State.command?_of_le hop
    rw [State.seqTurn_of_command hb hc]
    exact exec_busy_proceeds_or_overrun i hb

/-- Issuing has a next state for every word, and so has a write of any register with `BUSY = 0`. -/
theorem State.writeReg_proceeds (v : Word) (r : Reg) (hb : s.busy = false) : Proceeds (s.writeReg v r) := by
  cases r with
  | cmd =>
    cases hd : decode v with
    | command i =>
      rw [show s.writeReg v .cmd = exec i s by simp only [State.writeReg, State.issue, hd]]
      exact exec_idle_proceeds i hb
    | illegal why => exact .of_eq (State.issue_illegal hd)
  | _ => exact .of_eq rfl

theorem State.hostWrite_proceeds (s : State) (off : Nat) (v : Word) : Proceeds (s.hostWrite off v) := by
  rw [State.hostWrite_eq]
  split
  · exact .of_eq rfl
  split
  · exact .of_eq rfl
  cases hb : s.busy with
  | true => exact .of_eq rfl
  | false => exact State.writeReg_proceeds v _ hb

theorem accessChecked_refused {off width : Nat} {o : Out} (h : width ≠ 4 ∨ off % 4 ≠ 0) :
    accessChecked off width o = .refused .notOneAlignedWord := if_pos h

theorem accessChecked_outside {off : Nat} {o : Out} (ha : off % 4 = 0) (h : 0x400 ≤ off) :
    accessChecked off 4 o = .refused .outsideWindow := by
  rw [accessChecked, if_neg (by omega), if_pos h]

/-- An access is refused, or passed on. -/
theorem accessChecked_cases (off width : Nat) (o : Out) :
    (∃ r, accessChecked off width o = .refused r) ∨ accessChecked off width o = o := by
  unfold accessChecked
  split
  · exact .inl ⟨_, rfl⟩
  split
  · exact .inl ⟨_, rfl⟩
  · exact .inr rfl

/-- An access that `Turn.lawful` lets through is an aligned word of the window. -/
theorem access_lawful {off width : Nat} (h : (width == 4 && off % 4 == 0 && decide (off < 0x400)) = true) :
    width = 4 ∧ off % 4 = 0 ∧ off < 0x400 := by
  simpa only [Bool.and_eq_true, beq_iff_eq, decide_eq_true_eq, and_assoc] using h

/-- What is not the sequencer's step has a next state where it is lawful, and is refused otherwise. -/
theorem State.access_proceeds {off width : Nat} {o : Out} (ho : Proceeds o) :
    (((width == 4 && off % 4 == 0 && decide (off < 0x400)) = true) → Proceeds (accessChecked off width o)) ∧
      ∀ f, accessChecked off width o ≠ .fault f := by
  refine ⟨fun hl => ?_, fun f hf => ?_⟩
  · obtain ⟨rfl, ha, hw⟩ := access_lawful hl
    rwa [accessChecked_pass ha hw]
  · obtain ⟨t, rfl⟩ := ho
    rcases accessChecked_cases off width (.next t) with ⟨r, hr⟩ | hr <;> rw [hr] at hf <;> cases hf

/-- A step is the sequencer's turn, in a state that differs from `s` in its turns to come only, or the turn of another
agent, which has a next state where it is lawful and never faults. -/
theorem step_seqTurn_or_other (s : State) :
    (∃ ts, step s = (s.withAgenda ts).seqTurn) ∨
      ∃ turn ts, s.agenda = turn :: ts ∧ (turn.lawful = true → Proceeds (step s)) ∧ ∀ f, step s ≠ .fault f := by
  cases ha : s.agenda with
  | nil => exact .inl ⟨s.agenda, step_of_agenda_nil ha⟩
  | cons turn ts =>
    have next : ∀ t, (s.withAgenda ts).turn turn = .next t →
        (turn.lawful = true → Proceeds (step s)) ∧ ∀ f, step s ≠ .fault f := fun t ht => by
      rw [step_cons ha, ht]
      exact ⟨fun _ => .of_eq rfl, nofun⟩
    cases turn with
    | write off width v =>
      refine .inr ⟨_, ts, rfl, ?_⟩
      rw [step_cons ha]
      exact State.access_proceeds ((s.withAgenda ts).hostWrite_proceeds off v)
    | read off width =>
      refine .inr ⟨_, ts, rfl, ?_⟩
      rw [step_cons ha]
      exact State.access_proceeds (.of_eq rfl)
    | wait =>
      cases hb : s.busy with
      | true => exact .inl ⟨s.agenda, step_of_wait_busy ha hb⟩
      | false =>
        refine .inr ⟨_, ts, rfl, ?_⟩
        rw [step_of_wait_idle ha hb]
        exact ⟨fun _ => .of_eq rfl, nofun⟩
    | attach src => exact .inr ⟨_, ts, rfl, next _ rfl⟩
    | seq => exact .inl ⟨ts, step_of_seq ha⟩
    | powerOn => exact .inr ⟨_, ts, rfl, next _ rfl⟩

end

/-! ## The statements -/

/-- Settles O58: a step is the sequencer's turn, which only an overrun source can stop, or that of another agent, which
only an unlawful access can. -/
theorem lawfulStepsProceed : Obligations.LawfulStepsProceed := by
  unfold Obligations.LawfulStepsProceed
  refine ⟨fun s hinv hlawful hsrc => ?proceeds, fun s f hinv => ?noFault⟩ <;> obtain ⟨-, -, -, hseq, -⟩ := hinv
  case proceeds =>
    rcases step_seqTurn_or_other s with ⟨ts, hstep⟩ | ⟨turn, ts, ha, hnext, -⟩
    · rcases State.seqTurn_proceeds_or_overrun (s := s.withAgenda ts) hseq with hnext | ⟨-, hover⟩
      · rwa [hstep]
      · exact absurd hover (State.Dutiful.phaseStep_ne_overrun (s := s.withAgenda ts) hsrc)
    · exact hnext (hlawful turn ts ha)
  case noFault =>
    rcases step_seqTurn_or_other s with ⟨ts, hstep⟩ | ⟨-, -, -, -, hno⟩
    · rw [hstep]
      rcases State.seqTurn_proceeds_or_overrun (s := s.withAgenda ts) hseq with ⟨t, ht⟩ | ⟨ht, -⟩ <;> rw [ht] <;> nofun
    · exact hno f

/-- Settles O59: the turn of a `WAIT` by `BUSY`; `STALL` names the state in which a `PROD` holds. -/
theorem waitEndsWhenNotBusy : Obligations.WaitEndsWhenNotBusy := by
  unfold Obligations.WaitEndsWhenNotBusy
  refine ⟨fun s ts ha hb => step_of_wait_idle ha hb, fun s t ts ha hb h => ?stays, fun s ts ha hstall => ?held⟩
  case stays =>
    rw [step_of_wait_busy ha hb] at h
    rcases State.seqTurn_next h with ⟨-, rfl⟩ | ⟨-, i, hc, he⟩
    · rfl
    · exact (exec_busy_next hb hc he).agenda
  case held =>
    obtain ⟨hb, hop, hrem, hfull⟩ := State.stall_iff.mp hstall
    rw [step_of_wait_busy ha hb, State.seqTurn_of_command hb (State.command?_prod hop)]
    exact (execProd_busy _ hb).trans (State.prodStep_of_full hrem hfull.not_lt)

/-- Settles O5: what an issue accepts is what `CUR_OP` and `PROD_REM` name; a `PROD` turned away leaves `BUSY = 0`. -/
theorem issuedCommandIsTheOneExecuted : Obligations.IssuedCommandIsTheOneExecuted := by
  unfold Obligations.IssuedCommandIsTheOneExecuted
  intro i s t hwf hb h hbusy
  rcases exec_idle_next hb h with ⟨hi, rfl⟩ | ⟨n, rfl, -, rfl⟩ | ⟨n, -, -, rfl⟩
  · exact State.command?_accept hi
  · exact State.command?_accept_prod (Instr.wellFormed_prod.mp hwf)
  · exact absurd hbusy (Bool.eq_false_iff.mp hb)

/-- Settles O4: the turn that writes `CMD`, and the three ways in which the sequencer's turn comes. -/
theorem stepRunsTheDecodedCommand : Obligations.StepRunsTheDecodedCommand := by
  unfold Obligations.StepRunsTheDecodedCommand
  refine ⟨fun s ts v i ha hb hd => step_of_write_cmd ha hb hd, fun s i hb hc => ⟨fun ha => ?_, fun ts ha => ?_,
    fun ts ha => ?_⟩⟩
  · rw [step_of_agenda_nil ha, State.seqTurn_of_command hb hc]
  · exact (step_of_seq ha).trans (State.seqTurn_of_command (s := s.withAgenda ts) hb hc)
  · rw [step_of_wait_busy ha hb, State.seqTurn_of_command hb hc]

/-- Settles O6: the word's write to `CMD` is the next turn of a state with `BUSY = 0`. -/
theorem fetchWordIsRunNext : Obligations.FetchWordIsRunNext := by
  unfold Obligations.FetchWordIsRunNext
  intro s w i hw hd
  have hword : tableWord 32 w = BitVec.ofNat 32 w := by rw [tableWord, Nat.mod_eq_of_lt hw]
  exact step_of_write_cmd (s := s.withFetchWord 32 w) rfl rfl (hword ▸ hd)

/-- Settles O45: the two refusals of `accessChecked`, in its order. -/
theorem otherAccessesAreRefused : Obligations.OtherAccessesAreRefused := by
  unfold Obligations.OtherAccessesAreRefused
  refine fun s off width v => ⟨fun h => ⟨accessChecked_refused h, accessChecked_refused h⟩, ?_⟩
  rintro rfl ha hout
  exact ⟨accessChecked_outside ha hout, accessChecked_outside ha hout⟩

/-- Settles O1: the six words are what `encode` gives for their commands; the two others fail on the row of `PROD` and
outside every row. -/
theorem decodeReadsWrittenWords : Obligations.DecodeReadsWrittenWords := by
  unfold Obligations.DecodeReadsWrittenWords
  exact ⟨decode_encode (i := .nop) rfl, decode_encode (i := .init) rfl, decode_encode (i := .prod 10) rfl,
    decode_encode (i := .prod 65535) rfl, decode_encode (i := .halt) rfl, decode_encode (i := .tune) rfl,
    (decode_of_opField_prod rfl).trans (if_neg (by decide)), decode_of_unassigned (by decide)⟩

end Sys2Proof.Machine
end

section
/-! What each step leaves alone: a command's inputs and a run's configuration, `MODE`, the FIFO and the source
(70_reset_and_hazards.md R304, R307, R308; 10_state.md R61, R62; 44_baseband_commands.md R246). -/

namespace Sys2Proof.Machine

/-- `RATE`, `CTRL.STEREO` and `COEF`: a run's configuration (R308). -/
def State.runConfig (s : State) : BitVec 24 × Bool × Vector Word 64 := (s.rate, s.stereo, s.coef)

/-- `FC`, `DEV`, `FREF` and `KOVR`: the inputs of `TUNE` (41_pll_selector.md R150). -/
def State.tuneInputs (s : State) : Word × Word × Word × BitVec 8 := (s.fc, s.dev, s.fref, s.kovr)

section
variable {s t u : State}

/-! ## The inputs -/

theorem State.runConfig_eq_iff :
    t.runConfig = s.runConfig ↔ t.rate = s.rate ∧ t.stereo = s.stereo ∧ t.coef = s.coef := by
  simp only [State.runConfig, Prod.mk.injEq]

theorem State.tuneInputs_eq_iff :
    t.tuneInputs = s.tuneInputs ↔ t.fc = s.fc ∧ t.dev = s.dev ∧ t.fref = s.fref ∧ t.kovr = s.kovr := by
  simp only [State.tuneInputs, Prod.mk.injEq]

/-- All that the host configures. -/
def State.hostInputs (s : State) : (BitVec 24 × Bool × Vector Word 64) × (Word × Word × Word × BitVec 8) :=
  (s.runConfig, s.tuneInputs)

theorem State.SampleOnly.hostInputs (h : s.SampleOnly t) : t.hostInputs = s.hostInputs :=
  (congrArg State.hostInputs h :)

theorem State.UpsamplerOnly.hostInputs (h : s.UpsamplerOnly t) : t.hostInputs = s.hostInputs := h.sampleOnly.hostInputs

/-- No command's step writes an input (R307). -/
theorem SeqCase.hostInputs (h : SeqCase s t) : t.hostInputs = s.hostInputs := by
  cases h with
  | nop _ ht | initFails _ _ ht | init _ _ ht | prodEmpty _ _ ht | prodHeld _ _ ht | halt _ ht => subst ht; rfl
  | prodSample u _ _ _ hu ht =>
    obtain ⟨hkeep, -⟩ := State.phaseStep_ok hu
    rw [ht, u.finishSample_sampleOnly.hostInputs, hkeep.hostInputs]
  | prodFails e p u _ _ _ hu ht =>
    obtain ⟨-, hkeep, -⟩ := State.phaseStep_fail hu
    rw [ht]
    exact hkeep.hostInputs
  | tune _ ht => rw [ht, s.tuneStep_frame]; rfl

/-- An issue touches nothing but the sequencer triple and `ERR` (40_sequencer.md R131, R132). -/
theorem exec_idle_frame {i : Instr} (hb : s.busy = false) (h : exec i s = .next t) :
    t = { s with busy := t.busy, curOp := t.curOp, prodRem := t.prodRem, err := t.err } := by
  rcases exec_idle_next hb h with ⟨-, rfl⟩ | ⟨n, -, -, rfl⟩ | ⟨n, -, -, rfl⟩ <;> rfl

theorem State.pop_hostInputs (s : State) : s.pop.2.hostInputs = s.hostInputs := by
  rcases s.pop_spec with ⟨-, h⟩ | ⟨w, rest, -, h⟩ <;> rw [h] <;> rfl

/-- Of all steps but a reset only the host's writes change an input: of `TUNE`'s with `BUSY = 0`, of a run's with
`BUSY = 0` outside `RUNNING`. -/
theorem StepCase.hostInputs (h : StepCase s t) (hreset : s.resetsNext = false) :
    t.hostInputs = s.hostInputs ∨ (s.busy = false ∧ t.runConfig = s.runConfig) ∨
      (s.busy = false ∧ s.mode ≠ .running) := by
  cases h with
  | idle ts ht | clearErr _ ts _ ht | raise _ ts ht | read _ ts _ ht | attach _ ts _ ht =>
    exact .inl (by rw [ht]; rfl)
  | seq i ts hn hc he => exact .inl (SeqCase.of_seqNext hn hc he).hostInputs
  | issue i v ts _ hb _ he => exact .inl (by rw [exec_idle_frame (s := s.withAgenda ts) hb he]; rfl)
  | reset ts hr _ => exact absurd hr (Bool.eq_false_iff.mp hreset)
  | config ts hb hm _ => exact .inr (.inr ⟨hb, hm⟩)
  | inputs ts hb ht => exact .inr (.inl ⟨hb, by rw [ht]; rfl⟩)
  | pop ts _ ht =>
    subst ht
    exact .inl (s.withAgenda ts).pop_hostInputs

/-! ## `MODE` -/

/-- The transitions of `MODE` that a command's step can make (R62): `HALT`'s, `INIT`'s with a rate, and that of a `PROD`
whose phase step fails, with its error. -/
theorem SeqCase.mode (h : SeqCase s t) :
    t.mode = s.mode ∨ (s.curOp = 0x03 ∧ t.mode = .idle) ∨ (s.curOp = 0x01 ∧ s.rate ≠ 0 ∧ t.mode = .running) ∨
      (s.curOp = 0x02 ∧ s.prodRem ≠ 0 ∧ t.mode = .fault ∧
        (t.err = s.err ||| Cause.audioIo.bit ∨ t.err = s.err ||| Cause.emptySrc.bit)) := by
  cases h with
  | nop _ ht | initFails _ _ ht | prodEmpty _ _ ht | prodHeld _ _ ht => exact .inl (by subst ht; rfl)
  | init hop hr ht => exact .inr (.inr (.inl ⟨hop, hr, ht ▸ rfl⟩))
  | prodSample u _ _ _ hu ht =>
    obtain ⟨hkeep, -⟩ := State.phaseStep_ok hu
    refine .inl ?_
    rw [ht, State.finishSample_eq rfl]
    exact hkeep.mode
  | prodFails e p u hop hrem _ hu ht =>
    obtain ⟨he, hkeep, -⟩ := State.phaseStep_fail hu
    have herr : t.err = s.err ||| e.bit := by rw [ht, State.failSample_err, hkeep.err]
    refine .inr (.inr (.inr ⟨hop, hrem, ht ▸ rfl, he.imp ?_ ?_⟩)) <;> rintro rfl <;> exact herr
  | halt hop ht => exact .inr (.inl ⟨hop, ht ▸ rfl⟩)
  | tune _ ht => exact .inl (by rw [ht, s.tuneStep_frame]; rfl)

/-- R62, for one step of any agent. -/
theorem StepCase.mode (h : StepCase s t) :
    t.mode = s.mode ∨ (s.resetsNext = true ∧ t.mode = .idle) ∨ (s.runsNext 0x03 = true ∧ t.mode = .idle) ∨
      (s.runsNext 0x01 = true ∧ s.rate ≠ 0 ∧ t.mode = .running) ∨
      (s.runsNext 0x02 = true ∧ s.prodRem ≠ 0 ∧ t.mode = .fault ∧
        (t.err = s.err ||| Cause.audioIo.bit ∨ t.err = s.err ||| Cause.emptySrc.bit)) := by
  cases h with
  | idle ts ht | clearErr _ ts _ ht | raise _ ts ht | config ts _ _ ht | inputs ts _ ht | read _ ts _ ht
  | attach _ ts _ ht => exact .inl (by rw [ht]; rfl)
  | seq i ts hn hc he =>
    refine (SeqCase.of_seqNext hn hc he).mode.imp_right fun h => .inr ?_
    exact h.imp (.imp_left (State.runsNext_of_seqNext hn))
      (.imp (.imp_left (State.runsNext_of_seqNext hn)) (.imp_left (State.runsNext_of_seqNext hn)))
  | issue i v ts _ hb _ he => exact .inl (by rw [exec_idle_frame (s := s.withAgenda ts) hb he]; rfl)
  | reset ts hr ht => exact .inr (.inl ⟨hr, ht ▸ rfl⟩)
  | pop ts _ ht =>
    subst ht
    exact .inl (s.withAgenda ts).pop_mode

/-! ## The FIFO -/

/-- What a command's step can do to the FIFO: `INIT` empties it, a `PROD` that found room appends a word (R246). -/
theorem SeqCase.fifo (h : SeqCase s t) :
    t.fifo = s.fifo ∨ (s.curOp = 0x02 ∧ s.fifo.length < s.par.outDepth ∧ ∃ y, t.fifo = s.fifo ++ [y]) ∨
      (s.curOp = 0x01 ∧ t.fifo = []) := by
  cases h with
  | nop _ ht | initFails _ _ ht | prodEmpty _ _ ht | prodHeld _ _ ht | halt _ ht => exact .inl (by subst ht; rfl)
  | init hop _ ht => exact .inr (.inr ⟨hop, ht ▸ rfl⟩)
  | prodSample u hop _ hroom hu ht =>
    obtain ⟨hkeep, -⟩ := State.phaseStep_ok hu
    obtain ⟨y, -, hfin⟩ := u.finishSample_spec
    exact .inr (.inl ⟨hop, hroom, y, by rw [ht, hfin, hkeep.fifo]⟩)
  | prodFails e p u _ _ _ hu ht =>
    obtain ⟨-, hkeep, -⟩ := State.phaseStep_fail hu
    exact .inl (by rw [ht]; exact hkeep.fifo)
  | tune _ ht => exact .inl (by rw [ht, s.tuneStep_frame]; rfl)

/-- R61, R98 and R246, for one step of any agent. -/
theorem StepCase.fifo (h : StepCase s t) :
    t.fifo = s.fifo ∨
      (s.runsNext 0x02 = true ∧ s.fifo.length < s.par.outDepth ∧ ∃ y, t.fifo = s.fifo ++ [y]) ∨
      ((∃ ts, s.agenda = .read 0x01C 4 :: ts) ∧ s.fifo = t.rdata :: t.fifo) ∨
      (t.fifo = [] ∧ (s.runsNext 0x01 = true ∨ s.resetsNext = true)) := by
  cases h with
  | idle ts ht | clearErr _ ts _ ht | raise _ ts ht | config ts _ _ ht | inputs ts _ ht | read _ ts _ ht
  | attach _ ts _ ht => exact .inl (by rw [ht]; rfl)
  | seq i ts hn hc he =>
    rcases (SeqCase.of_seqNext hn hc he).fifo with hsame | ⟨hop, hpush⟩ | ⟨hop, hempty⟩
    · exact .inl hsame
    · exact .inr (.inl ⟨State.runsNext_of_seqNext hn hop, hpush⟩)
    · exact .inr (.inr (.inr ⟨hempty, .inl (State.runsNext_of_seqNext hn hop)⟩))
  | issue i v ts _ hb _ he => exact .inl (by rw [exec_idle_frame (s := s.withAgenda ts) hb he]; rfl)
  | reset ts hr ht => exact .inr (.inr (.inr ⟨ht ▸ rfl, .inr hr⟩))
  | pop ts ha ht =>
    subst ht
    rcases (s.withAgenda ts).pop_spec with ⟨-, hp⟩ | ⟨w, rest, hf, hp⟩ <;> rw [hp]
    · exact .inl rfl
    · exact .inr (.inr (.inl ⟨⟨ts, ha⟩, hf⟩))

/-! ## The source -/

/-- Only the step of a `PROD` asks the source for anything. -/
theorem SeqCase.src (h : SeqCase s t) (hop : s.curOp ≠ 0x02) : t.srcReqs = s.srcReqs ∧ t.src = s.src := by
  cases h with
  | nop _ ht | initFails _ _ ht | init _ _ ht | halt _ ht => subst ht; exact ⟨rfl, rfl⟩
  | prodEmpty hc _ _ | prodHeld hc _ _ | prodSample _ hc _ _ _ _ | prodFails _ _ _ hc _ _ _ _ => exact absurd hc hop
  | tune _ ht =>
    rw [ht, s.tuneStep_frame]
    exact ⟨rfl, rfl⟩

/-- R304, for one step of any agent that is not the step of a `PROD`. -/
theorem StepCase.src (h : StepCase s t) (hprod : s.runsNext 0x02 = false) :
    t.srcReqs = s.srcReqs ∧ (t.src = s.src ∨ ∃ ts, s.agenda = .attach t.src :: ts) := by
  cases h with
  | idle ts ht | clearErr _ ts _ ht | raise _ ts ht | config ts _ _ ht | inputs ts _ ht | read _ ts _ ht
  | reset ts _ ht => exact ⟨by rw [ht]; rfl, .inl (by rw [ht]; rfl)⟩
  | seq i ts hn hc he =>
    have hop : s.curOp ≠ 0x02 := fun hop => Bool.eq_false_iff.mp hprod (State.runsNext_of_seqNext hn hop)
    exact ((SeqCase.of_seqNext hn hc he).src hop).imp_right .inl
  | issue i v ts _ hb _ he =>
    rw [exec_idle_frame (s := s.withAgenda ts) hb he]
    exact ⟨rfl, .inl rfl⟩
  | attach src ts ha ht =>
    subst ht
    exact ⟨rfl, .inr ⟨ts, ha⟩⟩
  | pop ts _ ht =>
    subst ht
    exact ⟨(s.withAgenda ts).pop_srcReqs, .inl (s.withAgenda ts).pop_src⟩

end

/-! ## The statements -/

/-- Settles O48: the cases of a step (`StepCase.hostInputs`); `BUSY = 1` excludes both writes of inputs, `RUNNING`
that of the configuration. -/
theorem inputsAreFixedWhileBusyOrRunning : Obligations.InputsAreFixedWhileBusyOrRunning := by
  unfold Obligations.InputsAreFixedWhileBusyOrRunning
  refine ⟨fun s t h hb hreset => ?busy, fun s t h hm hreset => ?running⟩
  case busy =>
    have hnot : s.busy ≠ false := by rw [hb]; decide
    rcases (step_next h).hostInputs hreset with hsame | ⟨hidle, -⟩ | ⟨hidle, -⟩
    · obtain ⟨hconfig, htune⟩ := Prod.mk.inj hsame
      obtain ⟨hrate, hstereo, hcoef⟩ := State.runConfig_eq_iff.mp hconfig
      exact ⟨hrate, hstereo, hcoef, State.tuneInputs_eq_iff.mp htune⟩
    · exact absurd hidle hnot
    · exact absurd hidle hnot
  case running =>
    refine State.runConfig_eq_iff.mp ?_
    rcases (step_next h).hostInputs hreset with hsame | ⟨-, hsame⟩ | ⟨-, hnot⟩
    · exact congrArg Prod.fst hsame
    · exact hsame
    · exact absurd hm hnot

/-- Settles O49: the cases of a step (`StepCase.mode`). -/
theorem modeChangesOnlyAsListed : Obligations.ModeChangesOnlyAsListed := by
  unfold Obligations.ModeChangesOnlyAsListed
  exact fun s t h hne => (step_next h).mode.resolve_left hne

/-- Settles O50: the cases of a step (`StepCase.fifo`). -/
theorem fifoKeepsOrderAndDropsNothing : Obligations.FifoKeepsOrderAndDropsNothing := by
  unfold Obligations.FifoKeepsOrderAndDropsNothing
  exact fun s t h => (step_next h).fifo

/-- Settles O52: the cases of a step (`StepCase.src`). -/
theorem onlyProdAsksTheSource : Obligations.OnlyProdAsksTheSource := by
  unfold Obligations.OnlyProdAsksTheSource
  exact fun s t h hprod => (step_next h).src hprod

end Sys2Proof.Machine
end

section
/-! Consequences of the search rules (41_pll_selector.md R163). -/

namespace Sys2Proof.Machine

/-! ## Candidates that fail -/

section
variable {t : TuneIn} {j k : Nat}

/-- The VCO limit is a bound on `k * f_c`, which grows with `k` (R155). -/
theorem TuneIn.underVco_eq_false_iff : t.underVco k = false ↔ Config.vcoMax ≤ k * t.fc := by
  simp only [TuneIn.underVco, decide_eq_false_iff_not, not_lt]

theorem TuneIn.underVco_eq_false_of_le (hjk : j ≤ k) (h : t.underVco j = false) : t.underVco k = false := by
  rw [TuneIn.underVco_eq_false_iff] at *
  exact h.trans (Nat.mul_le_mul_right _ hjk)

/-- The multiplier at a negative frequency has a negative floor, at any other one a floor of at least 0 (R157). -/
theorem TuneIn.multAt_neg {f : Int} (hfref : 0 < t.fref) (hk : 0 < k) (hf : f < 0) : t.multAt f k < 0 := by
  rw [TuneIn.multAt, floorDiv, Int.fdiv_eq_ediv_of_nonneg _ (Int.natCast_nonneg _)]
  exact Int.ediv_neg_of_neg_of_pos (mul_neg_of_neg_of_pos hf (by exact_mod_cast hk)) (by exact_mod_cast hfref)

theorem TuneIn.multAt_nonneg {f : Int} (hf : 0 ≤ f) : 0 ≤ t.multAt f k := by
  rw [TuneIn.multAt, floorDiv, Int.fdiv_eq_ediv_of_nonneg _ (Int.natCast_nonneg _)]
  exact Int.ediv_nonneg (mul_nonneg hf (Int.natCast_nonneg _)) (Int.natCast_nonneg _)

/-- A swing that reaches below 0 has floors of two signs. -/
theorem TuneIn.valid_eq_false_of_swing_below_zero (hfref : 0 < t.fref) (hk : 0 < k)
    (hfc : t.fc < Config.guardHz + t.dev) : t.valid k = false := by
  refine Bool.eq_false_iff.mpr fun hvalid => ?_
  obtain ⟨-, hswing⟩ := (t.valid_iff k).mp hvalid
  have hlow : t.multAt ((t.fc : Int) - Config.guardHz - t.dev) k < 0 := TuneIn.multAt_neg hfref hk (by omega)
  have hhigh : 0 ≤ t.multAt ((t.fc : Int) + Config.guardHz + t.dev) k := TuneIn.multAt_nonneg (by omega)
  omega

end

/-! ## The multiplier of a searched result -/

/-- Integer and fractional part of `n / d`, the latter cut to 20 bits: together at most `n / d`, and less than 2^-20
below it (R162, R163). -/
theorem mult_parts_bounds {n d : Nat} (hd : 0 < d) :
    (n / d * 2 ^ 20 + n % d * 2 ^ 20 / d) * d ≤ n * 2 ^ 20 ∧
      n * 2 ^ 20 < (n / d * 2 ^ 20 + n % d * 2 ^ 20 / d + 1) * d := by
  have hn : d * (n / d) + n % d = n := Nat.div_add_mod n d
  have hfrac : d * (n % d * 2 ^ 20 / d) + n % d * 2 ^ 20 % d = n % d * 2 ^ 20 := Nat.div_add_mod _ _
  have hrest : n % d * 2 ^ 20 % d < d := Nat.mod_lt _ hd
  have htotal : (n / d * 2 ^ 20 + n % d * 2 ^ 20 / d) * d + n % d * 2 ^ 20 % d = n * 2 ^ 20 := by
    calc (n / d * 2 ^ 20 + n % d * 2 ^ 20 / d) * d + n % d * 2 ^ 20 % d
        = d * (n / d) * 2 ^ 20 + (d * (n % d * 2 ^ 20 / d) + n % d * 2 ^ 20 % d) := by ring
      _ = (d * (n / d) + n % d) * 2 ^ 20 := by rw [hfrac, Nat.add_mul]
      _ = n * 2 ^ 20 := by rw [hn]
  constructor
  · omega
  · rw [Nat.add_mul, Nat.one_mul]
    omega

/-- The fractional part has 20 bits (R162). -/
theorem mult_frac_lt {n d : Nat} (hd : 0 < d) : n % d * 2 ^ 20 / d < 2 ^ 20 :=
  Nat.div_lt_of_lt_mul (Nat.mul_lt_mul_of_pos_right (Nat.mod_lt n hd) (by decide))

section
variable {s : State}

/-- Only a search with a result leaves `TSTAT` = `DONE` alone (10_state.md R57). -/
theorem State.tuneStep_done_alone (h : s.tuneStep.tstat = 0b001) :
    s.fref ≠ 0 ∧ s.kovr = 0 ∧ s.tuneIn.search.1 ≠ 0 := by
  by_cases hf : s.fref = 0
  · rw [State.tuneStep_of_fref_zero hf] at h
    exact absurd h (by simp [tstatBits])
  by_cases ho : s.kovr = 0
  · refine ⟨hf, ho, fun hb => ?_⟩
    rw [State.tuneStep_of_not_found hf ho hb] at h
    exact absurd h (by simp [tstatBits])
  · rw [State.tuneStep_of_override hf ho] at h
    exact absurd h (by simp [tstatBits])

/-- A divider that the search found is a candidate below the VCO limit, and fits its register. -/
theorem TuneIn.search_found_bounds {t : TuneIn} (h : t.search.1 ≠ 0) :
    t.search.1 < 50 ∧ t.search.1 * t.fc < Config.vcoMax := by
  rcases t.search_found with ⟨hnone, -⟩ | ⟨hmem, hvalid, -⟩
  · exact absurd (congrArg Prod.fst hnone) h
  · exact ⟨(mem_candidates.mp hmem).2, ((t.valid_iff _).mp hvalid).1⟩

/-- What a searched result writes, as numbers: nothing wraps, because `K * FC` is below the VCO limit (R162). -/
theorem State.tuneStep_searched (h : s.tuneStep.tstat = 0b001) :
    0 < s.fref.toNat ∧
    s.tuneStep.mint.toNat = s.tuneStep.k.toNat * s.fc.toNat / s.fref.toNat ∧
    s.tuneStep.mfrac.toNat = s.tuneStep.k.toNat * s.fc.toNat % s.fref.toNat * 2 ^ 20 / s.fref.toNat := by
  obtain ⟨hf, ho, hb⟩ := State.tuneStep_done_alone h
  obtain ⟨hk50, hvco⟩ := TuneIn.search_found_bounds hb
  have hpos : 0 < s.fref.toNat := Nat.pos_of_ne_zero fun hz => hf (BitVec.eq_of_toNat_eq hz)
  rw [State.tuneStep_of_found hf ho hb]
  generalize s.tuneIn.search.1 = k at hk50 hvco
  have hk : (BitVec.ofNat 8 k).toNat = k := by
    rw [BitVec.toNat_ofNat]
    omega
  have hquot : k * s.fc.toNat / s.fref.toNat ≤ k * s.fc.toNat := Nat.div_le_self _ _
  have hvco : k * s.fc.toNat < Config.vcoMax := hvco
  simp only [State.complete_mint, State.complete_mfrac, State.complete_k, State.setTune_mint, State.setTune_mfrac,
    State.setTune_k, Bool.false_eq_true, if_false, TuneIn.multInt, TuneIn.multFrac, hk]
  refine ⟨hpos, ?_, ?_⟩
  · exact (BitVec.toNat_ofNat _ _).trans (Nat.mod_eq_of_lt (hquot.trans_lt (hvco.trans (by decide))))
  · exact (BitVec.toNat_ofNat _ _).trans (Nat.mod_eq_of_lt (mult_frac_lt hpos))

end

/-! ## The statements -/

/-- Settles O41: the limit is monotone in the candidate; a swing below 0 has no common floor; and the multiplier of a
searched result is cut to 20 bits of fraction (`mult_parts_bounds`). -/
theorem tuneSearchConsequences : Obligations.TuneSearchConsequences := by
  unfold Obligations.TuneSearchConsequences
  refine ⟨fun t j k _ hjk h => TuneIn.underVco_eq_false_of_le hjk h, fun t k hfref hk hfc => ?swing,
    fun s u hb h hdone => ?searched⟩
  case swing => exact TuneIn.valid_eq_false_of_swing_below_zero hfref (Nat.zero_lt_of_lt hk) hfc
  case searched =>
    obtain rfl : s.tuneStep = u := Host.Outcome.next.inj ((execTune_busy hb).symm.trans h)
    obtain ⟨hpos, hmint, hmfrac⟩ := State.tuneStep_searched hdone
    rw [hmint, hmfrac, Nat.mul_comm s.fc.toNat]
    exact ⟨rfl, mult_parts_bounds hpos⟩

end Sys2Proof.Machine
end

section
/-! The filter's kernel in exact arithmetic: the 64 symmetric terms as 127 taps, and the reference kernel before its
rounding (43_fir.md R219 to R223). -/

namespace Sys2Proof.Machine

/-! ## The expanded kernel -/

theorem sum_map_range {M : Type} [AddCommMonoid M] (n : Nat) (f : Nat → M) :
    ((List.range n).map f).sum = ∑ i ∈ Finset.range n, f i := rfl

/-- The expanded kernel is symmetric about its centre, tap 63 (R220). -/
theorem fullKernel_symm (c : Nat → Int) {a : Nat} (ha : a ≤ 126) : fullKernel c a = fullKernel c (126 - a) := by
  rcases Nat.lt_trichotomy a 63 with h | rfl | h
  · simp (disch := omega) only [fullKernel, if_pos, if_neg]
    congr 1
    omega
  · rfl
  · simp (disch := omega) only [fullKernel, if_pos, if_neg]

/-- Each of the first 63 coefficients is applied to two taps, the last twice to the centre (R219). -/
theorem sum_fullKernel_mul (c f : Nat → Int) :
    ∑ a ∈ Finset.range 127, fullKernel c a * f a = ∑ i ∈ Finset.range 64, c i * (f i + f (126 - i)) := by
  have hlow : ∀ i ∈ Finset.range 63, fullKernel c i * f i = c i * f i := fun i hi => by
    rw [fullKernel, if_pos (Finset.mem_range.mp hi)]
  have hhigh : ∀ i ∈ Finset.range 63, fullKernel c (126 - i) * f (126 - i) = c i * f (126 - i) := fun i hi => by
    have hi := Finset.mem_range.mp hi
    rw [← fullKernel_symm c (by omega), fullKernel, if_pos hi]
  calc ∑ a ∈ Finset.range 127, fullKernel c a * f a
      = ∑ i ∈ Finset.range 63, fullKernel c i * f i + fullKernel c 63 * f 63 +
          ∑ i ∈ Finset.range 63, fullKernel c (126 - i) * f (126 - i) := by
        rw [← Finset.sum_range_succ, Finset.sum_range_add _ 64 63]
        congr 1
        rw [← Finset.sum_range_reflect]
        refine Finset.sum_congr rfl fun i hi => ?_
        have hi := Finset.mem_range.mp hi
        rw [show 64 + (63 - 1 - i) = 126 - i by omega]
    _ = ∑ i ∈ Finset.range 63, (c i * f i + c i * f (126 - i)) + c 63 * (f 63 + f (126 - 63)) := by
        have hcentre : fullKernel c 63 = 2 * c 63 := rfl
        rw [Finset.sum_congr rfl hlow, Finset.sum_congr rfl hhigh, Finset.sum_add_distrib, hcentre]
        ring
    _ = ∑ i ∈ Finset.range 64, c i * (f i + f (126 - i)) := by
        rw [Finset.sum_range_succ _ 63]
        simp only [mul_add]

/-- The i-th oldest entry is the one of age `126 - i` (R216, R218). -/
theorem dlIndex_oldest_eq_newest (w : Nat) {i : Nat} (hi : i < 64) :
    dlIndex (oldest w i) = dlIndex (newest w (126 - i)) := by
  refine Fin.ext ?_
  simp only [dlIndex, oldest, newest]
  omega

/-! ## The reference kernel -/

theorem rawTap_neg (rate : Nat) (m : Int) : rawTap rate (-m) = rawTap rate m := by
  unfold rawTap
  by_cases hm : m = 0
  · rw [hm, neg_zero]
  · rw [if_neg (neg_ne_zero.mpr hm), if_neg hm]
    push_cast
    rw [mul_neg, neg_div, Real.sin_neg, mul_neg, neg_div_neg_eq]

theorem hamming_neg (m : Int) : hamming (-m) = hamming m := by
  unfold hamming
  push_cast
  rw [mul_neg, neg_div, Real.cos_neg]

theorem kernelTap_neg (rate : Nat) (m : Int) : kernelTap rate (-m) = kernelTap rate m := by
  rw [kernelTap, kernelTap, rawTap_neg, hamming_neg]

theorem sum_kernelTap {rate : Nat} (h : kernelSum rate ≠ 0) :
    ∑ m ∈ Finset.Icc (-63 : Int) 63, kernelTap rate m = 1 := by
  simp only [kernelTap]
  rw [← Finset.sum_div]
  exact div_self h

/-- A symmetric sum about 0: twice the terms above it, and the centre. -/
theorem sum_Icc_of_even {f : Int → ℝ} (hf : ∀ m, f (-m) = f m) (n : Nat) :
    ∑ m ∈ Finset.Icc (-n : Int) n, f m = 2 * ∑ i ∈ Finset.range n, f (i + 1) + f 0 := by
  induction n with
  | zero => simp
  | succ n ih =>
    have hset : Finset.Icc (-(n + 1 : Nat) : Int) (n + 1 : Nat) =
        insert (-(n + 1) : Int) (insert (n + 1 : Int) (Finset.Icc (-n : Int) n)) := by
      ext m
      simp only [Finset.mem_Icc, Finset.mem_insert]
      omega
    rw [hset, Finset.sum_insert, Finset.sum_insert, ih, hf, Finset.sum_range_succ]
    · ring
    · simp
    · simp only [Finset.mem_insert, Finset.mem_Icc]
      omega

/-- The coefficients are the taps of one side, from the outermost in, and half of the centre (R223). -/
theorem sum_referenceCoef (rate : Nat) :
    ∑ i : Fin 64, referenceCoef rate i = ∑ i ∈ Finset.range 63, kernelTap rate (i + 1) + kernelTap rate 0 / 2 := by
  rw [Fin.sum_univ_castSucc]
  congr 1
  rw [← Finset.sum_range_reflect, Finset.sum_range]
  refine Finset.sum_congr rfl fun i _ => ?_
  have hi : (i.castSucc).val < 63 := i.isLt
  rw [referenceCoef, if_pos hi]
  congr 1
  simp only [Fin.val_castSucc]
  omega

/-! ## The statements -/

/-- Settles O28: the expanded kernel applied to the entries by age, and to 1 for the gain. -/
theorem symmetricTermsAreTheFullKernel : Obligations.SymmetricTermsAreTheFullKernel := by
  unfold Obligations.SymmetricTermsAreTheFullKernel
  refine fun c => ⟨fun x w => ?taps, fun a ha => fullKernel_symm c ha, ?gain⟩
  case taps =>
    rw [exactEvaluate, sum_map_range, sum_map_range, sum_fullKernel_mul]
    refine Finset.sum_congr rfl fun i hi => ?_
    rw [dlIndex_oldest_eq_newest w (Finset.mem_range.mp hi)]
  case gain =>
    rw [sum_map_range, sum_map_range]
    calc ∑ a ∈ Finset.range 127, fullKernel c a = ∑ a ∈ Finset.range 127, fullKernel c a * 1 := by simp only [mul_one]
      _ = ∑ i ∈ Finset.range 64, c i * (1 + 1) := sum_fullKernel_mul c fun _ => 1
      _ = 2 * ∑ i ∈ Finset.range 64, c i := by rw [← Finset.sum_mul, mul_comm]; rfl

/-- Settles O29: the taps are divided by their own sum; the coefficients are one side of a symmetric kernel. -/
theorem referenceKernelIsNormalised : Obligations.ReferenceKernelIsNormalised := by
  unfold Obligations.ReferenceKernelIsNormalised
  intro rate h
  refine ⟨sum_kernelTap h, kernelTap_neg rate, ?_⟩
  have htotal := (sum_Icc_of_even (kernelTap_neg rate) 63).symm.trans (sum_kernelTap h)
  rw [sum_referenceCoef]
  linarith

end Sys2Proof.Machine
end

section
/-! Rounding to nearest, ties to even: the word that `roundMagnitude` gives is finite below the overflow bound, and no
finite word is nearer to the exact number (43_fir.md R212). -/

namespace Sys2Proof.Machine

/-! ## Nearness -/

/-- `x` is no nearer to `z` than `v` is; and where it is another value and as near, `even` holds. -/
def NoNearer (even : Prop) (z v x : ℤ) : Prop :=
  |z - v| ≤ |z - x| ∧ (|z - v| = |z - x| → x ≠ v → even)

section
variable {even : Prop} {z v x : ℤ}

theorem NoNearer.of_lt (h : |z - v| < |z - x|) : NoNearer even z v x := ⟨h.le, fun heq => absurd heq h.ne⟩

theorem NoNearer.neg (h : NoNearer even z v x) : NoNearer even (-z) (-v) (-x) := by
  unfold NoNearer at *
  rwa [← neg_sub', abs_neg, ← neg_sub', abs_neg, Ne, neg_inj]

/-- On the other side of 0 every value but 0 is farther away than 0. -/
theorem NoNearer.opposite (h : NoNearer even z v 0) (hz : 0 ≤ z) (hx : 0 ≤ x) : NoNearer even z v (-x) := by
  rcases hx.eq_or_lt with rfl | hx
  · rwa [neg_zero]
  · refine .of_lt (h.1.trans_lt ?_)
    rw [sub_zero, sub_neg_eq_add, abs_of_nonneg hz, abs_of_nonneg (by omega)]
    omega

end

/-! ## The nearest multiple of a power of two -/

/-- The rounded quotient is strictly within half a unit of the exact one, or it is even. -/
theorem roundShift_strict_or_even (n k : Nat) :
    (2 * n < 2 * (roundShift n k * 2 ^ k) + 2 ^ k ∧ 2 * (roundShift n k * 2 ^ k) < 2 * n + 2 ^ k) ∨
      roundShift n k % 2 = 0 := by
  by_cases htie : 2 * (n % 2 ^ k) = 2 ^ k
  · exact .inr (roundShift_tie htie)
  refine .inl ?_
  have hdm := Nat.div_add_mod n (2 ^ k)
  have hlt := Nat.mod_lt n (Nat.two_pow_pos k)
  rw [Nat.mul_comm] at hdm
  unfold roundShift
  dsimp only
  generalize n / 2 ^ k = q at *
  generalize n % 2 ^ k = r at *
  generalize 2 ^ k = m at *
  have hs : (q + 1) * m = q * m + m := by ring
  split
  · omega
  · rw [if_pos (by omega)]
    omega

/-- Two different multiples of `m` are at least `m` apart. -/
theorem mul_apart {i j m : Nat} (h : i ≠ j) : i * m + m ≤ j * m ∨ j * m + m ≤ i * m := by
  rcases Nat.lt_or_gt_of_ne h with h | h
  · exact .inl (Nat.succ_mul i m ▸ Nat.mul_le_mul_right m h)
  · exact .inr (Nat.succ_mul j m ▸ Nat.mul_le_mul_right m h)

/-- No multiple of the unit is nearer than the rounded one, and of two equally near ones it is the even one. -/
theorem roundShift_noNearer (n k j : Nat) :
    NoNearer (roundShift n k % 2 = 0) n (roundShift n k * 2 ^ k : ℕ) (j * 2 ^ k : ℕ) := by
  have hnear := roundShift_near n k
  have hstrict := roundShift_strict_or_even n k
  by_cases hj : j = roundShift n k
  · rw [hj]
    exact ⟨le_rfl, fun _ hne => absurd rfl hne⟩
  have hapart := mul_apart (m := 2 ^ k) hj
  unfold NoNearer
  generalize roundShift n k * 2 ^ k = v at *
  generalize j * 2 ^ k = x at *
  constructor
  · rcases abs_cases ((n : ℤ) - v) with h | h <;> rcases abs_cases ((n : ℤ) - x) with h' | h' <;> omega
  · intro heq _
    refine hstrict.resolve_left fun hlt => ?_
    rcases abs_cases ((n : ℤ) - v) with h | h <;> rcases abs_cases ((n : ℤ) - x) with h' | h' <;> omega

/-! ## The nearest number of 24 significant bits -/

/-- The bits that rounding `n` units of 2^-(149 + g) drops: those below 2^-149, and those beyond 24 significant ones. -/
def droppedBits (n g : Nat) : Nat := max g (Nat.log2 n - 23)

theorem roundMagnitude_eq (n g : Nat) :
    roundMagnitude n g =
      min ((droppedBits n g - g) * 2 ^ 23 + roundShift n (droppedBits n g)) infinityBits := rfl

theorem le_droppedBits (n g : Nat) : g ≤ droppedBits n g := Nat.le_max_left _ _

/-- Where more is dropped than the bits below 2^-149, `n` has just 24 bits more. -/
theorem bits_of_lt_droppedBits {n g : Nat} (h : g < droppedBits n g) :
    2 ^ (droppedBits n g + 23) ≤ n ∧ n < 2 ^ (droppedBits n g + 24) := by
  have hd : droppedBits n g = max g (Nat.log2 n - 23) := rfl
  have hlog : Nat.log2 n = droppedBits n g + 23 := by omega
  have hlt : n < 2 ^ (Nat.log2 n + 1) := Nat.lt_log2_self
  have hle : 2 ^ Nat.log2 n ≤ n := Nat.log2_self_le (by rintro rfl; simp at hlog)
  rw [hlog] at hlt hle
  exact ⟨hle, hlt⟩

/-- The significand has at most 24 bits, or is the next power of two; with an exponent above the least it has all. -/
theorem roundShift_droppedBits_bounds (n g : Nat) :
    roundShift n (droppedBits n g) ≤ 2 ^ 24 ∧ (droppedBits n g = g ∨ 2 ^ 23 ≤ roundShift n (droppedBits n g)) := by
  rcases (le_droppedBits n g).eq_or_lt with hg | hg
  · refine ⟨?_, .inl hg.symm⟩
    have hd : droppedBits n g = max g (Nat.log2 n - 23) := rfl
    have hlog : n < 2 ^ (Nat.log2 n + 1) := Nat.lt_log2_self
    have hn : n < 2 ^ (g + 24) := hlog.trans_le (Nat.pow_le_pow_right (by decide) (by omega))
    have hnear := roundShift_near n g
    rw [← hg]
    rw [Nat.pow_add] at hn
    have hp := Nat.two_pow_pos g
    generalize 2 ^ g = m at *
    by_contra hc
    nlinarith
  · obtain ⟨hlo, hhi⟩ := bits_of_lt_droppedBits hg
    have hb := roundShift_bounds hlo hhi
    exact ⟨hb.2, .inr hb.1⟩

/-- No number with a significand of 24 bits is nearer than the rounded one: where its unit is finer than the rounded
one's, it lies below the whole binade of `n`. -/
theorem roundShift_noNearer_of_significand (n g : Nat) {f e : Nat} (hf : f < 2 ^ 24) :
    NoNearer (roundShift n (droppedBits n g) % 2 = 0) n
      (roundShift n (droppedBits n g) * 2 ^ droppedBits n g : ℕ) (f * 2 ^ e * 2 ^ g : ℕ) := by
  have hunit : f * 2 ^ e * 2 ^ g = f * 2 ^ (e + g) := by rw [Nat.mul_assoc, ← Nat.pow_add]
  rw [hunit]
  rcases Nat.le_total (droppedBits n g) (e + g) with hle | hle
  · have hmul : f * 2 ^ (e + g) = f * 2 ^ (e + g - droppedBits n g) * 2 ^ droppedBits n g := by
      rw [Nat.mul_assoc, ← Nat.pow_add, Nat.sub_add_cancel hle]
    rw [hmul]
    exact roundShift_noNearer _ _ _
  rcases hle.eq_or_lt with heq | hlt
  · rw [heq]
    exact roundShift_noNearer _ _ _
  · obtain ⟨hlo, -⟩ := bits_of_lt_droppedBits (n := n) (g := g) (by omega)
    rw [Nat.add_comm, Nat.pow_add] at hlo
    have hx : f * 2 ^ (e + g) < 2 ^ 23 * 2 ^ droppedBits n g := by
      have hpow : 2 ^ (e + g) * 2 ≤ 2 ^ droppedBits n g := by
        rw [← Nat.pow_succ]
        exact Nat.pow_le_pow_right (by decide) hlt
      have hpos := Nat.two_pow_pos (e + g)
      nlinarith
    obtain ⟨hbase, -⟩ := roundShift_noNearer n (droppedBits n g) (2 ^ 23)
    refine .of_lt (hbase.trans_lt ?_)
    generalize 2 ^ 23 * 2 ^ droppedBits n g = base at *
    generalize f * 2 ^ (e + g) = x at *
    rw [abs_of_nonneg (by omega), abs_of_nonneg (by omega)]
    omega

/-! ## The word that rounding gives -/

/-- The magnitude of a word built from an exponent and a significand, a carry out of the significand included (R211). -/
theorem withSign_magnitude {b : Bool} {k r : Nat} (hr : r ≤ 2 ^ 24) (hk : k = 0 ∨ 2 ^ 23 ≤ r)
    (hfin : k * 2 ^ 23 + r < infinityBits) : magnitude (withSign b (k * 2 ^ 23 + r)) = r * 2 ^ k := by
  have hbits : k * 2 ^ 23 + r < 2 ^ 31 := hfin.trans (by decide)
  have hexp := withSign_expField (b := b) hbits
  have hfrac := withSign_fracField (b := b) hbits
  rcases Nat.lt_or_ge r (2 ^ 23) with hsub | hnorm
  · obtain rfl : k = 0 := by omega
    rw [magnitude_subnormal (by omega), hfrac]
    omega
  rw [magnitude_normal (by omega), hexp, hfrac]
  rcases hr.eq_or_lt with rfl | hr
  · rw [show (k * 2 ^ 23 + 2 ^ 24) / 2 ^ 23 - 1 = k + 1 by omega, show (k * 2 ^ 23 + 2 ^ 24) % 2 ^ 23 = 0 by omega,
      Nat.pow_succ]
    ring
  · rw [show (k * 2 ^ 23 + r) / 2 ^ 23 - 1 = k by omega, show 2 ^ 23 + (k * 2 ^ 23 + r) % 2 ^ 23 = r by omega]

theorem withSign_value (b : Bool) {bits : Nat} (h : bits < 2 ^ 31) :
    value (withSign b bits) = if b then -(magnitude (withSign b bits) : ℤ) else magnitude (withSign b bits) := by
  rw [value, withSign_signBit h]

theorem withSign_getLsbD_zero {b : Bool} {bits : Nat} (h : bits < 2 ^ 31) (heven : bits % 2 = 0) :
    (withSign b bits).getLsbD 0 = false := by
  rw [BitVec.getLsbD, Nat.testBit_zero, withSign_toNat h, decide_eq_false_iff_not]
  split <;> omega

/-- A finite word's magnitude is a significand of 24 bits times a power of two (R211). -/
theorem exists_magnitude_eq (c : Word) : ∃ f e, f < 2 ^ 24 ∧ magnitude c = f * 2 ^ e := by
  have hfrac := fracField_lt c
  by_cases he : expField c = 0
  · exact ⟨fracField c, 0, by omega, by rw [magnitude_subnormal he, Nat.pow_zero, Nat.mul_one]⟩
  · exact ⟨2 ^ 23 + fracField c, expField c - 1, by omega, magnitude_normal he⟩

section
variable {n g : Nat} {b : Bool}

/-- Below infinity the rounded word's magnitude is the rounded multiple. -/
theorem roundMagnitude_magnitude (hfin : roundMagnitude n g < infinityBits) :
    magnitude (withSign b (roundMagnitude n g)) * 2 ^ g = roundShift n (droppedBits n g) * 2 ^ droppedBits n g := by
  rw [roundMagnitude_eq, min_lt_iff] at hfin
  have hlt := hfin.resolve_right (lt_irrefl _)
  obtain ⟨hr, hk⟩ := roundShift_droppedBits_bounds n g
  rw [roundMagnitude_eq, min_eq_left hlt.le, withSign_magnitude hr (hk.imp_left fun h => by omega) hlt, Nat.mul_assoc,
    ← Nat.pow_add, Nat.sub_add_cancel (le_droppedBits n g)]

/-- The last fraction bit of the rounded word is that of the rounded multiple. -/
theorem roundMagnitude_getLsbD_zero (hfin : roundMagnitude n g < infinityBits)
    (heven : roundShift n (droppedBits n g) % 2 = 0) : (withSign b (roundMagnitude n g)).getLsbD 0 = false := by
  refine withSign_getLsbD_zero (hfin.trans (by decide)) ?_
  rw [roundMagnitude_eq, min_lt_iff] at hfin
  rw [roundMagnitude_eq, min_eq_left (hfin.resolve_right (lt_irrefl _)).le]
  omega

/-- No finite word is nearer to `n`, on either side of 0, than the rounded magnitude. -/
theorem roundMagnitude_noNearer (hfin : roundMagnitude n g < infinityBits) (c : Word) (negative : Bool) :
    NoNearer ((withSign b (roundMagnitude n g)).getLsbD 0 = false) n
      (magnitude (withSign b (roundMagnitude n g)) * 2 ^ g : ℕ)
      (if negative then -(magnitude c * 2 ^ g : ℕ) else (magnitude c * 2 ^ g : ℕ)) := by
  have hnear : ∀ f e : Nat, f < 2 ^ 24 → NoNearer ((withSign b (roundMagnitude n g)).getLsbD 0 = false) n
      (magnitude (withSign b (roundMagnitude n g)) * 2 ^ g : ℕ) (f * 2 ^ e * 2 ^ g : ℕ) := fun f e hf => by
    rw [roundMagnitude_magnitude hfin]
    obtain ⟨hle, htie⟩ := roundShift_noNearer_of_significand n g (e := e) hf
    exact ⟨hle, fun heq hne => roundMagnitude_getLsbD_zero hfin (htie heq hne)⟩
  obtain ⟨f, e, hf, hc⟩ := exists_magnitude_eq c
  rw [hc]
  cases negative with
  | false => exact hnear f e hf
  | true =>
    refine NoNearer.opposite ?_ (Int.natCast_nonneg _) (Int.natCast_nonneg _)
    simpa using hnear 0 0 (by decide)

end

/-! ## Rounding a signed number -/

/-- The overflow bound of R212 in units of 2^-(149 + g), for a signed number. -/
theorem overflow_bound_iff (z : ℤ) (g : Nat) :
    (2 ^ 25 - 1) * 2 ^ 252 * 2 ^ g ≤ |z| ↔ roundMagnitude z.natAbs g = infinityBits := by
  have hcast : (2 ^ 25 - 1 : ℤ) = (2 ^ 25 - 1 : ℕ) := rfl
  rw [roundMagnitude_overflow, Int.abs_eq_natAbs, Nat.pow_add, ← Nat.mul_assoc, hcast]
  exact_mod_cast Iff.rfl

section
variable {z : ℤ} {g : Nat} {b : Bool}

/-- From the overflow bound on the result is the infinity of the exact number's sign (R212). -/
theorem rounded_overflow (hneg : b = true → z ≤ 0) (hpos : b = false → 0 ≤ z)
    (h : (2 ^ 25 - 1) * 2 ^ 252 * 2 ^ g ≤ |z|) :
    withSign b (roundMagnitude z.natAbs g) = if z < 0 then 0xFF800000 else 0x7F800000 := by
  have hz : z ≠ 0 := by
    rintro rfl
    rw [abs_zero] at h
    exact absurd h (not_le.mpr (by positivity))
  rw [(overflow_bound_iff z g).mp h]
  cases b with
  | true => rw [if_pos (lt_of_le_of_ne (hneg rfl) hz)]; rfl
  | false => rw [if_neg (hpos rfl).not_gt]; rfl

/-- Below it the result is finite, and no finite word is nearer to the exact number; of two equally near it is the one
whose last fraction bit is 0 (R212). -/
theorem rounded_nearest (hneg : b = true → z ≤ 0) (hpos : b = false → 0 ≤ z)
    (h : |z| < (2 ^ 25 - 1) * 2 ^ 252 * 2 ^ g) :
    isFinite (withSign b (roundMagnitude z.natAbs g)) = true ∧ ∀ c : Word,
      NoNearer ((withSign b (roundMagnitude z.natAbs g)).getLsbD 0 = false) z
        (value (withSign b (roundMagnitude z.natAbs g)) * 2 ^ g) (value c * 2 ^ g) := by
  have hfin : roundMagnitude z.natAbs g < infinityBits :=
    lt_of_le_of_ne (roundMagnitude_le _ _) fun heq => absurd ((overflow_bound_iff z g).mpr heq) (not_le.mpr h)
  have hbits : roundMagnitude z.natAbs g < 2 ^ 31 := hfin.trans (by decide)
  refine ⟨(withSign_isFinite hbits).mpr hfin, fun c => ?_⟩
  have hc : value c * 2 ^ g = if signBit c then -((magnitude c * 2 ^ g : ℕ) : ℤ) else (magnitude c * 2 ^ g : ℕ) := by
    rw [value]
    split <;> push_cast <;> ring
  rw [withSign_value b hbits, hc]
  cases b with
  | false =>
    have hz : z = z.natAbs := (Int.natAbs_of_nonneg (hpos rfl)).symm
    have h := roundMagnitude_noNearer (b := false) hfin c (signBit c)
    rw [← hz] at h
    simpa using h
  | true =>
    have hz : -(z.natAbs : ℤ) = z := by have := hneg rfl; omega
    have h := (roundMagnitude_noNearer (b := true) hfin c (!signBit c)).neg
    rw [hz] at h
    cases hs : signBit c <;> simpa [hs] using h

end

end Sys2Proof.Machine
end

section
/-! The two operations of the datapath: their special cases, that they commute, and that they round the exact result
once (43_fir.md R211 to R214; 92_eei_decisions.md D44). -/

namespace Sys2Proof.Machine

section
variable {a b w x y : Word}

/-! ## Words by their fields -/

/-- A word is its sign over its other bits (R211). -/
theorem word_eq_withSign (w : Word) : w = withSign (signBit w) (expField w * 2 ^ 23 + fracField w) := by
  have hw := w.isLt
  have hbits : expField w * 2 ^ 23 + fracField w < 2 ^ 31 := by
    have := expField_lt w
    have := fracField_lt w
    omega
  refine BitVec.eq_of_toNat_eq ?_
  rw [withSign_toNat hbits, expField_eq, fracField_eq, signBit_eq]
  split <;> rename_i h <;> simp only [decide_eq_true_eq] at h <;> omega

theorem isInf_iff : isInf w = true ↔ expField w = 255 ∧ fracField w = 0 := by
  simp only [isInf, Bool.and_eq_true, beq_iff_eq]

/-- The infinity of a sign is one word. -/
theorem eq_withSign_of_isInf (h : isInf w = true) : w = withSign (signBit w) infinityBits := by
  obtain ⟨he, hf⟩ := isInf_iff.mp h
  conv_lhs => rw [word_eq_withSign w, he, hf]
  rfl

theorem magnitude_eq_zero_iff : magnitude w = 0 ↔ expField w = 0 ∧ fracField w = 0 := by
  by_cases he : expField w = 0
  · rw [magnitude_subnormal he]
    exact ⟨fun h => ⟨he, h⟩, And.right⟩
  · have hpos : 0 < (2 ^ 23 + fracField w) * 2 ^ (expField w - 1) := by positivity
    rw [magnitude_normal he]
    exact ⟨fun h => absurd h hpos.ne', fun h => absurd h.1 he⟩

/-- Of magnitude 0 are the two zeros only. -/
theorem eq_withSign_of_magnitude_eq_zero (h : magnitude w = 0) : w = withSign (signBit w) 0 := by
  obtain ⟨he, hf⟩ := magnitude_eq_zero_iff.mp h
  conv_lhs => rw [word_eq_withSign w, he, hf]
  rfl

theorem value_eq_zero_iff : value w = 0 ↔ magnitude w = 0 := by
  rw [← Int.natAbs_eq_zero, value_natAbs]

theorem magnitude_ne_zero_of_isInf (h : isInf w = true) : magnitude w ≠ 0 := fun hz => by
  obtain ⟨he, -⟩ := isInf_iff.mp h
  rw [(magnitude_eq_zero_iff.mp hz).1] at he
  cases he

theorem value_of_neg (h : signBit w = true) : value w = -(magnitude w : ℤ) := if_pos h

theorem value_of_pos (h : signBit w = false) : value w = magnitude w := if_neg (Bool.eq_false_iff.mp h)

theorem withSign_zero (negative : Bool) : withSign negative 0 = if negative then 0x80000000 else 0x00000000 := by
  cases negative <;> rfl

/-- Bits of at most infinity's are no NaN's (R212). -/
theorem withSign_isNaN {negative : Bool} {bits : Nat} (h : bits ≤ infinityBits) :
    isNaN (withSign negative bits) = false := by
  have hbits : bits < 2 ^ 31 := h.trans_lt (by decide)
  have hinf : infinityBits = 255 * 2 ^ 23 := rfl
  simp only [isNaN, withSign_expField hbits, withSign_fracField hbits, Bool.and_eq_false_iff, beq_eq_false_iff_ne,
    bne_eq_false_iff_eq]
  omega

/-- A word is a NaN, an infinity or finite. -/
theorem isFinite_of_not (hn : isNaN w = false) (hi : isInf w = false) : isFinite w = true := by
  simp only [isFinite, bne_iff_ne]
  intro he
  by_cases hf : fracField w = 0 <;> simp [isNaN, isInf, he, hf] at hn hi

theorem isNaN_of_isInf (h : isInf w = true) : isNaN w = false := by
  obtain ⟨-, hf⟩ := isInf_iff.mp h
  simp [isNaN, hf]

/-! ## The negation of a word -/

theorem expField_neg (x : Word) : expField (x ^^^ 0x80000000) = expField x := by
  have hbits : (0x80000000 : Word).extractLsb' 23 8 = 0 := by decide
  rw [expField, BitVec.extractLsb'_xor, hbits]
  exact congrArg BitVec.toNat BitVec.xor_zero

theorem fracField_neg (x : Word) : fracField (x ^^^ 0x80000000) = fracField x := by
  have hbits : (0x80000000 : Word).extractLsb' 0 23 = 0 := by decide
  rw [fracField, BitVec.extractLsb'_xor, hbits]
  exact congrArg BitVec.toNat BitVec.xor_zero

theorem signBit_neg (x : Word) : signBit (x ^^^ 0x80000000) = !signBit x := by
  have hbit : (0x80000000 : Word).getLsbD 31 = true := by decide
  rw [signBit, BitVec.getLsbD_xor, hbit, Bool.xor_true]
  rfl

theorem magnitude_neg (x : Word) : magnitude (x ^^^ 0x80000000) = magnitude x := by
  rw [magnitude, magnitude, expField_neg, fracField_neg]

theorem value_neg (x : Word) : value (x ^^^ 0x80000000) = -value x := by
  cases hs : signBit x
  · rw [value_of_neg (by rw [signBit_neg, hs]; rfl), value_of_pos hs, magnitude_neg]
  · rw [value_of_pos (by rw [signBit_neg, hs]; rfl), value_of_neg hs, magnitude_neg, neg_neg]

theorem isFinite_neg (x : Word) : isFinite (x ^^^ 0x80000000) = isFinite x := by
  rw [isFinite, isFinite, expField_neg]

/-! ## Special operands -/

theorem fadd32_of_isNaN (h : isNaN a = true ∨ isNaN b = true) : fadd32 a b = canonicalNaN := by
  rw [fadd32, if_pos (Bool.or_eq_true_iff.mpr h)]

theorem fmul32_of_isNaN (h : isNaN a = true ∨ isNaN b = true) : fmul32 a b = canonicalNaN := by
  rw [fmul32, if_pos (Bool.or_eq_true_iff.mpr h)]

/-- Two infinities (R213). -/
theorem fadd32_of_isInf (ha : isInf a = true) (hb : isInf b = true) :
    fadd32 a b = if signBit a = signBit b then a else canonicalNaN := by
  simp only [fadd32, isNaN_of_isInf ha, isNaN_of_isInf hb, ha, hb, Bool.or_false, Bool.false_eq_true, if_false, if_true,
    Bool.true_and, bne_iff_ne, ne_eq, ite_not]

theorem fadd32_of_isInf_left (ha : isInf a = true) (hb : isFinite b = true) : fadd32 a b = a := by
  simp only [fadd32, isNaN_of_isInf ha, isFinite_cases hb, ha, Bool.or_false, Bool.false_and, Bool.false_eq_true,
    if_false, if_true]

theorem fadd32_of_isInf_right (ha : isFinite a = true) (hb : isInf b = true) : fadd32 a b = b := by
  simp only [fadd32, isNaN_of_isInf hb, isFinite_cases ha, hb, Bool.or_false, Bool.false_eq_true, if_false, if_true]

/-- An infinity and any operand that is no NaN (R214). -/
theorem fmul32_of_isInf (ha : isNaN a = false) (hb : isNaN b = false) (h : isInf a = true ∨ isInf b = true) :
    fmul32 a b =
      if magnitude a = 0 ∨ magnitude b = 0 then canonicalNaN else withSign (signBit a != signBit b) infinityBits := by
  simp only [fmul32, ha, hb, Bool.or_false, Bool.false_eq_true, if_false, if_pos (Bool.or_eq_true_iff.mpr h)]

/-! ## Both operations commute -/

/-- D44. -/
theorem fadd32_comm (a b : Word) : fadd32 a b = fadd32 b a := by
  by_cases hn : isNaN a = true ∨ isNaN b = true
  · rw [fadd32_of_isNaN hn, fadd32_of_isNaN hn.symm]
  obtain ⟨hna, hnb⟩ : isNaN a = false ∧ isNaN b = false := by simpa using hn
  cases hia : isInf a <;> cases hib : isInf b
  · have ha := isFinite_of_not hna hia
    have hb := isFinite_of_not hnb hib
    rw [fadd32_finite ha hb, fadd32_finite hb ha, add_comm (value a), Bool.and_comm (signBit a)]
  · have ha := isFinite_of_not hna hia
    rw [fadd32_of_isInf_right ha hib, fadd32_of_isInf_left hib ha]
  · have hb := isFinite_of_not hnb hib
    rw [fadd32_of_isInf_left hia hb, fadd32_of_isInf_right hb hia]
  · rw [fadd32_of_isInf hia hib, fadd32_of_isInf hib hia]
    by_cases hs : signBit a = signBit b
    · rw [if_pos hs, if_pos hs.symm, eq_withSign_of_isInf hia, eq_withSign_of_isInf hib, hs]
    · rw [if_neg hs, if_neg (Ne.symm hs)]

theorem fmul32_comm (a b : Word) : fmul32 a b = fmul32 b a := by
  simp only [fmul32, Bool.or_comm (isNaN a), Bool.or_comm (isInf a), Or.comm (a := magnitude a = 0),
    Nat.mul_comm (magnitude a), bne_comm (a := signBit a)]

/-! ## Finite operands -/

/-- A sum of finite words is its exact value, rounded, with the value's sign (R212, R213). -/
theorem fadd32_eq_rounded (ha : isFinite a = true) (hb : isFinite b = true) :
    ∃ negative, fadd32 a b = withSign negative (roundMagnitude (value a + value b).natAbs 0) ∧
      (negative = true → value a + value b ≤ 0) ∧ (negative = false → 0 ≤ value a + value b) := by
  rw [fadd32_finite ha hb]
  by_cases hz : value a + value b = 0
  · exact ⟨_, by rw [if_pos hz, hz]; rfl, fun _ => hz.le, fun _ => hz.ge⟩
  · refine ⟨_, if_neg hz, fun h => (of_decide_eq_true h).le, fun h => not_lt.mp (of_decide_eq_false h)⟩

/-- The product's sign is the exclusive-or of the signs (R214). -/
theorem value_mul_value (a b : Word) :
    value a * value b =
      if (signBit a != signBit b) = true then -(magnitude a * magnitude b : ℤ) else magnitude a * magnitude b := by
  cases hsa : signBit a <;> cases hsb : signBit b <;> simp [value, hsa, hsb]

/-- A product of finite words likewise (R212, R214). -/
theorem fmul32_eq_rounded (ha : isFinite a = true) (hb : isFinite b = true) :
    ∃ negative, fmul32 a b = withSign negative (roundMagnitude (value a * value b).natAbs 149) ∧
      (negative = true → value a * value b ≤ 0) ∧ (negative = false → 0 ≤ value a * value b) := by
  have hpos : (0 : ℤ) ≤ magnitude a * magnitude b := by positivity
  refine ⟨signBit a != signBit b, ?_, fun h => ?_, fun h => ?_⟩
  · rw [fmul32_finite ha hb, Int.natAbs_mul, value_natAbs, value_natAbs]
  · rw [value_mul_value, if_pos h]
    exact neg_nonpos.mpr hpos
  · rw [value_mul_value, if_neg (Bool.eq_false_iff.mp h)]
    exact hpos

/-- Two finite words with sum 0 have two signs, or are the two zeros of one sign (R213). -/
theorem fadd32_of_sum_zero (ha : isFinite a = true) (hb : isFinite b = true) (h : value a + value b = 0) :
    fadd32 a b = if a = 0x80000000 ∧ b = 0x80000000 then 0x80000000 else 0x00000000 := by
  rw [fadd32_finite ha hb, if_pos h, withSign_zero]
  refine if_congr ⟨fun hs => ?_, fun hab => by rw [hab.1, hab.2]; rfl⟩ rfl rfl
  obtain ⟨hsa, hsb⟩ := Bool.and_eq_true_iff.mp hs
  rw [value_of_neg hsa, value_of_neg hsb] at h
  have hza := eq_withSign_of_magnitude_eq_zero (w := a) (by omega)
  have hzb := eq_withSign_of_magnitude_eq_zero (w := b) (by omega)
  rw [hsa] at hza
  rw [hsb] at hzb
  exact ⟨hza, hzb⟩

/-- A product that is exactly 0 keeps the exclusive-or of the signs (R214). -/
theorem fmul32_of_product_zero (ha : isFinite a = true) (hb : isFinite b = true) (h : value a * value b = 0) :
    fmul32 a b = if signBit a = signBit b then 0x00000000 else 0x80000000 := by
  have hmag : magnitude a * magnitude b = 0 := by
    rw [← value_natAbs, ← value_natAbs, ← Int.natAbs_mul, h, Int.natAbs_zero]
  have hround : roundMagnitude 0 149 = 0 := by decide
  rw [fmul32_finite ha hb, hmag, hround, withSign_zero]
  by_cases hs : signBit a = signBit b <;> simp [hs]

/-- A product that is no NaN is a sign over bits that are no NaN's; the sign is the exclusive-or (R214). -/
theorem fmul32_cases (a b : Word) :
    fmul32 a b = canonicalNaN ∨ ∃ bits, bits ≤ infinityBits ∧ fmul32 a b = withSign (signBit a != signBit b) bits := by
  by_cases hn : isNaN a = true ∨ isNaN b = true
  · exact .inl (fmul32_of_isNaN hn)
  obtain ⟨hna, hnb⟩ : isNaN a = false ∧ isNaN b = false := by simpa using hn
  by_cases hi : isInf a = true ∨ isInf b = true
  · rw [fmul32_of_isInf hna hnb hi]
    split
    · exact .inl rfl
    · exact .inr ⟨_, le_rfl, rfl⟩
  · obtain ⟨hia, hib⟩ : isInf a = false ∧ isInf b = false := by simpa using hi
    exact .inr ⟨_, roundMagnitude_le _ _, fmul32_finite (isFinite_of_not hna hia) (isFinite_of_not hnb hib)⟩

end

/-! ## The statements -/

/-- Settles O30: the sum is its exact value rounded (`fadd32_eq_rounded`), so `rounded_overflow` and `rounded_nearest`
say what it is. -/
theorem additionRoundsToNearestEven : Obligations.AdditionRoundsToNearestEven := by
  unfold Obligations.AdditionRoundsToNearestEven
  intro a b ha hb
  obtain ⟨negative, heq, hneg, hpos⟩ := fadd32_eq_rounded ha hb
  refine ⟨fun hover => ?overflow, fun hfin => ?nearest, fadd32_of_sum_zero ha hb⟩
  case overflow =>
    rw [heq]
    exact rounded_overflow hneg hpos (by rwa [pow_zero, mul_one])
  case nearest =>
    obtain ⟨hfinite, hnear⟩ := rounded_nearest (g := 0) hneg hpos (by rwa [pow_zero, mul_one])
    rw [← heq] at hfinite hnear
    refine ⟨hfinite, fun c _ => ?_⟩
    simpa only [NoNearer, pow_zero, mul_one] using hnear c

/-- Settles O31: as O30, with the product's finer unit. -/
theorem multiplicationRoundsToNearestEven : Obligations.MultiplicationRoundsToNearestEven := by
  unfold Obligations.MultiplicationRoundsToNearestEven
  intro a b ha hb
  obtain ⟨negative, heq, hneg, hpos⟩ := fmul32_eq_rounded ha hb
  refine ⟨fun hover => ?overflow, fun hfin => ?nearest, fmul32_of_product_zero ha hb⟩
  case overflow =>
    rw [heq]
    exact rounded_overflow hneg hpos hover
  case nearest =>
    obtain ⟨hfinite, hnear⟩ := rounded_nearest hneg hpos hfin
    rw [← heq] at hfinite hnear
    have hunit : (2 ^ 149 : ℤ) ≠ 0 := by positivity
    exact ⟨hfinite, fun c _ => (hnear c).imp_right fun htie hsame hne =>
      htie hsame fun hscaled => hne (mul_right_cancel₀ hunit hscaled)⟩

/-- Settles O32: each kind of operands in its equation of the operation. -/
theorem arithmeticSpecialCases : Obligations.ArithmeticSpecialCases := by
  unfold Obligations.ArithmeticSpecialCases
  refine ⟨fun a b h => ⟨fadd32_of_isNaN h, fmul32_of_isNaN h⟩, fun a b ha hb => ?finite, fun x hx => ?opposite,
    by decide, by decide, by decide, by decide, by decide, by decide, fun x y hx hy => fadd32_of_isInf hx hy,
    fun x y hx hy => ⟨fadd32_of_isInf_left hx hy, fadd32_of_isInf_right hy hx⟩, fun x y hx hz hy => ?zeroTimesInf,
    fun x y hx hy hne => ⟨?infTimes, fmul32_comm y x⟩, fun x y _ _ h => ?sign⟩
  case finite =>
    obtain ⟨negative, hsum, -⟩ := fadd32_eq_rounded ha hb
    rw [hsum, fmul32_finite ha hb]
    exact ⟨withSign_isNaN (roundMagnitude_le _ _), withSign_isNaN (roundMagnitude_le _ _)⟩
  case opposite =>
    have hsum : value x + value (x ^^^ 0x80000000) = 0 := by rw [value_neg, add_neg_cancel]
    rw [fadd32_finite hx ((isFinite_neg x).trans hx), if_pos hsum, signBit_neg, Bool.and_not_self]
    rfl
  case zeroTimesInf =>
    have hnan : fmul32 x y = canonicalNaN := by
      obtain ⟨hny, -⟩ := isFinite_cases hy
      rw [fmul32_of_isInf (isNaN_of_isInf hx) hny (.inl hx), if_pos (.inr (value_eq_zero_iff.mp hz))]
    exact ⟨hnan, (fmul32_comm y x).trans hnan⟩
  case infTimes =>
    have hmag : ¬ (magnitude x = 0 ∨ magnitude y = 0) :=
      not_or.mpr ⟨magnitude_ne_zero_of_isInf hx, fun hz => hne (value_eq_zero_iff.mpr hz)⟩
    rw [fmul32_of_isInf (isNaN_of_isInf hx) hy (.inl hx), if_neg hmag]
    cases signBit x <;> cases signBit y <;> rfl
  case sign =>
    rcases fmul32_cases x y with hnan | ⟨bits, hbits, heq⟩
    · rw [hnan] at h
      exact absurd h (by decide)
    · rw [heq]
      exact withSign_signBit (hbits.trans_lt (by decide))

/-- Settles O33: addition commutes, and the downmix adds the two channels first. -/
theorem additionIsCommutative : Obligations.AdditionIsCommutative := by
  unfold Obligations.AdditionIsCommutative
  refine ⟨fadd32_comm, fun s t l r hs ht hsf htf => ?_⟩
  rw [State.currentSample_stereo hsf hs, State.currentSample_stereo htf ht, fadd32_comm r l]

end Sys2Proof.Machine
end
